-- ==== Sys2Proof/Word.lean ====
section
/-! DEFINITION. The machine word. Samurai has one width: every register, address, instruction and memory location is
16 bits (00_scope.md R2, R7; 20_memory.md R50). -/

namespace Sys2Proof

/-- A 16-bit word: a register's contents, an address or an instruction (00_scope.md R7). -/
abbrev Word := BitVec 16

end Sys2Proof
end

