-- ==== Sys2Proof/Syntax.lean ====
section
/-! DEFINITION. The instructions, one constructor per row of spec/opcode_table.json (30_encoding.md R96), and the names
of the reasons a word is no instruction. Don't-care bits (30_encoding.md R91) are no part of an instruction. -/

namespace Sys2Proof

/-- A general purpose register, selected by a 3-bit field (10_state.md R21). R7 is the stack pointer (10_state.md R22). -/
inductive Reg where
  | r0 | r1 | r2 | r3 | r4 | r5 | r6 | r7
deriving DecidableEq, Repr

/-- The operand of PUSH and POP: the L bit selects the link register, which has no register field (30_encoding.md R88). -/
inductive StackReg where
  /-- L = 0: the general purpose register of the Ra field. -/
  | gpr (r : Reg)
  /-- L = 1: the link register; the Ra field is ignored. -/
  | lr
deriving DecidableEq, Repr

/-- The 41 instructions (30_encoding.md R96). `imm` is the raw field of the word; how it is extended belongs to the
meaning (30_encoding.md R92). A shift count is a number; `Instr.WellFormed` bounds it (30_encoding.md R95). -/
inductive Instr where
  -- Data manipulation: arithmetic (40_arithmetic.md)
  | add (rd ra rb : Reg)
  | addi (rd ra : Reg) (imm : BitVec 5)
  | addib (rd : Reg) (imm : BitVec 8)
  | adc (rd ra rb : Reg)
  | adci (rd ra : Reg) (imm : BitVec 5)
  | neg (rd ra : Reg)
  | sub (rd ra rb : Reg)
  | subi (rd ra : Reg) (imm : BitVec 5)
  | subib (rd : Reg) (imm : BitVec 8)
  | suc (rd ra rb : Reg)
  | suci (rd ra : Reg) (imm : BitVec 5)
  | cmp (ra rb : Reg)
  | cmpi (ra : Reg) (imm : BitVec 5)
  -- Data manipulation: logical and shift (41_logic_shift.md)
  | and (rd ra rb : Reg)
  | or (rd ra rb : Reg)
  | xor (rd ra rb : Reg)
  | not (rd ra : Reg)
  | nand (rd ra rb : Reg)
  | nor (rd ra rb : Reg)
  | lsl (rd ra : Reg) (count : Nat)
  | lsr (rd ra : Reg) (count : Nat)
  | asr (rd ra : Reg) (count : Nat)
  -- Data transfer and byte loads (42_data_transfer.md)
  | ldw (rd ra : Reg) (imm : BitVec 5)
  | stw (rd ra : Reg) (imm : BitVec 5)
  | lui (rd : Reg) (imm : BitVec 8)
  | lli (rd : Reg) (imm : BitVec 8)
  -- Control transfer (43_control_transfer.md)
  | br (imm : BitVec 8)
  | bne (imm : BitVec 8)
  | be (imm : BitVec 8)
  | blt (imm : BitVec 8)
  | bge (imm : BitVec 8)
  | bwl (imm : BitVec 8)
  | ret
  | jmp (ra : Reg) (imm : BitVec 5)
  -- Stack (44_stack.md)
  | push (src : StackReg)
  | pop (dst : StackReg)
  -- Interrupts (45_interrupt_instructions.md)
  | reti
  | enai
  | disi
  | stf
  | ldf
deriving DecidableEq, Repr

/-- Why a word is not a defined instruction. The spec gives such words no behaviour (30_encoding.md R100 to R103). -/
inductive DecodeError where
  /-- Opcode 11000 or 11011, which no instruction has (30_encoding.md R100). -/
  | unassignedOpcode
  /-- Opcode 11001 with bits [7:5] other than 111, or ICond 101, 110 or 111 (30_encoding.md R101). -/
  | undefinedInterruptWord
  /-- Opcode 00001 or 01001 with bits [4:0] other than 00001 (30_encoding.md R102). -/
  | undefinedStackWord
  /-- A shift opcode with bit 4 set (30_encoding.md R103). -/
  | undefinedShiftWord
deriving DecidableEq, Repr

end Sys2Proof
end

