-- ==== Sys2Proof/WellFormed.lean ====
section
/-! DEFINITION. Which instructions an instruction word can hold. The types bound every register and immediate field; the
one operand they leave unbounded is the shift count, whose field is 4 bits (30_encoding.md R95, R103). -/

namespace Sys2Proof

/-- A shift count that fits the 4-bit field: 0 to 15 (30_encoding.md R95). -/
def shiftCountFits (count : Nat) : Bool :=
  decide (count < 16)

/-- The instruction has an encoding (30_encoding.md R95, R96). -/
def Instr.WellFormed : Instr → Bool
  | .lsl _ _ count => shiftCountFits count
  | .lsr _ _ count => shiftCountFits count
  | .asr _ _ count => shiftCountFits count
  | .add _ _ _ => true
  | .addi _ _ _ => true
  | .addib _ _ => true
  | .adc _ _ _ => true
  | .adci _ _ _ => true
  | .neg _ _ => true
  | .sub _ _ _ => true
  | .subi _ _ _ => true
  | .subib _ _ => true
  | .suc _ _ _ => true
  | .suci _ _ _ => true
  | .cmp _ _ => true
  | .cmpi _ _ => true
  | .and _ _ _ => true
  | .or _ _ _ => true
  | .xor _ _ _ => true
  | .not _ _ => true
  | .nand _ _ _ => true
  | .nor _ _ _ => true
  | .ldw _ _ _ => true
  | .stw _ _ _ => true
  | .lui _ _ => true
  | .lli _ _ => true
  | .br _ => true
  | .bne _ => true
  | .be _ => true
  | .blt _ => true
  | .bge _ => true
  | .bwl _ => true
  | .ret => true
  | .jmp _ _ => true
  | .push _ => true
  | .pop _ => true
  | .reti => true
  | .enai => true
  | .disi => true
  | .stf => true
  | .ldf => true

end Sys2Proof
end

