-- ==== Sys2Proof/Decode.lean ====
section
/-! DEFINITION. The decoder, total on every 16-bit word and rejecting by name, and the encoder (30_encoding.md R80 to
R103). Both are written from the pattern column of R96. -/

namespace Sys2Proof

/-- The register a 3-bit field value names: i selects R[i] (30_encoding.md R90). -/
def regOfBits (b : BitVec 3) : Reg :=
  match b.toNat with
  | 0 => .r0
  | 1 => .r1
  | 2 => .r2
  | 3 => .r3
  | 4 => .r4
  | 5 => .r5
  | 6 => .r6
  | _ => .r7

/-- The 3-bit field value of a register (30_encoding.md R90). -/
def bitsOfReg : Reg → BitVec 3
  | .r0 => 0#3
  | .r1 => 1#3
  | .r2 => 2#3
  | .r3 => 3#3
  | .r4 => 4#3
  | .r5 => 5#3
  | .r6 => 6#3
  | .r7 => 7#3

/-! ### Fields of a word (30_encoding.md R81) -/

/-- The opcode, bits [15:11] (30_encoding.md R80). -/
def opcodeField (w : Word) : BitVec 5 := w.extractLsb' 11 5

/-- Bits [10:8] as a code: Cond or ICond (30_encoding.md R97, R98). -/
def condField (w : Word) : BitVec 3 := w.extractLsb' 8 3

/-- Bits [10:8] as a register: Rd (30_encoding.md R81). -/
def rdField (w : Word) : Reg := regOfBits (w.extractLsb' 8 3)

/-- Bits [7:5] as bits (30_encoding.md R81). -/
def raBits (w : Word) : BitVec 3 := w.extractLsb' 5 3

/-- Bits [7:5] as a register: Ra (30_encoding.md R81). -/
def raField (w : Word) : Reg := regOfBits (raBits w)

/-- Bits [4:2] as a register: Rb (30_encoding.md R81). -/
def rbField (w : Word) : Reg := regOfBits (w.extractLsb' 2 3)

/-- Bits [4:0]: imm5 (30_encoding.md R92). -/
def imm5Field (w : Word) : BitVec 5 := w.extractLsb' 0 5

/-- Bits [7:0]: imm8 (30_encoding.md R92). -/
def imm8Field (w : Word) : BitVec 8 := w.extractLsb' 0 8

/-- Bits [3:0] as a number: the shift count (30_encoding.md R95). -/
def countField (w : Word) : Nat := (w.extractLsb' 0 4).toNat

/-- Bit 4, a fixed 0 in the shift formats (30_encoding.md R95). -/
def shiftFixedBit (w : Word) : BitVec 1 := w.extractLsb' 4 1

/-- Bit 10 of format E: 1 selects the link register (30_encoding.md R88). -/
def linkBit (w : Word) : BitVec 1 := w.extractLsb' 10 1

/-- The operand of a PUSH or POP word (30_encoding.md R88). -/
def stackOperandField (w : Word) : StackReg :=
  if linkBit w = 1#1 then .lr else .gpr (raField w)

/-! ### The decoder -/

/-- A shift word, defined only when bit 4 is 0 (30_encoding.md R95, R103). -/
def decodeShift (make : Reg → Reg → Nat → Instr) (w : Word) : Except DecodeError Instr :=
  if shiftFixedBit w = 0#1 then .ok (make (rdField w) (raField w) (countField w))
  else .error .undefinedShiftWord

/-- A PUSH or POP word, defined only when bits [4:0] are 00001 (30_encoding.md R88, R102). -/
def decodeStack (make : StackReg → Instr) (w : Word) : Except DecodeError Instr :=
  if imm5Field w = 0b00001#5 then .ok (make (stackOperandField w))
  else .error .undefinedStackWord

/-- An opcode-11110 word, told apart by Cond; all eight values are assigned (30_encoding.md R97). -/
def decodeControl (w : Word) : Instr :=
  match (condField w).toNat with
  | 0b000 => .br (imm8Field w)
  | 0b001 => .jmp (raField w) (imm5Field w)
  | 0b010 => .ret
  | 0b011 => .bwl (imm8Field w)
  | 0b100 => .blt (imm8Field w)
  | 0b101 => .bge (imm8Field w)
  | 0b110 => .bne (imm8Field w)
  | _ => .be (imm8Field w)

/-- An opcode-11001 word: bits [7:5] must be 111 and ICond one of the five assigned codes (30_encoding.md R98, R101). -/
def decodeInterrupt (w : Word) : Except DecodeError Instr :=
  if raBits w = 0b111#3 then
    match (condField w).toNat with
    | 0b000 => .ok .reti
    | 0b001 => .ok .enai
    | 0b010 => .ok .disi
    | 0b011 => .ok .stf
    | 0b100 => .ok .ldf
    | _ => .error .undefinedInterruptWord
  else .error .undefinedInterruptWord

/-- The decode procedure of 30_encoding.md R99. -/
def decode (w : Word) : Except DecodeError Instr :=
  match (opcodeField w).toNat with
  | 0b00000 => .ok (.ldw (rdField w) (raField w) (imm5Field w))
  | 0b00001 => decodeStack .pop w
  | 0b00010 => .ok (.add (rdField w) (raField w) (rbField w))
  | 0b00011 => .ok (.addib (rdField w) (imm8Field w))
  | 0b00100 => .ok (.adc (rdField w) (raField w) (rbField w))
  | 0b00101 => .ok (.adci (rdField w) (raField w) (imm5Field w))
  | 0b00110 => .ok (.addi (rdField w) (raField w) (imm5Field w))
  | 0b00111 => .ok (.cmp (raField w) (rbField w))
  | 0b01000 => .ok (.stw (rdField w) (raField w) (imm5Field w))
  | 0b01001 => decodeStack .push w
  | 0b01010 => .ok (.sub (rdField w) (raField w) (rbField w))
  | 0b01011 => .ok (.subib (rdField w) (imm8Field w))
  | 0b01100 => .ok (.suc (rdField w) (raField w) (rbField w))
  | 0b01101 => .ok (.suci (rdField w) (raField w) (imm5Field w))
  | 0b01110 => .ok (.subi (rdField w) (raField w) (imm5Field w))
  | 0b01111 => .ok (.cmpi (raField w) (imm5Field w))
  | 0b10000 => .ok (.and (rdField w) (raField w) (rbField w))
  | 0b10001 => .ok (.or (rdField w) (raField w) (rbField w))
  | 0b10010 => .ok (.not (rdField w) (raField w))
  | 0b10011 => .ok (.xor (rdField w) (raField w) (rbField w))
  | 0b10100 => .ok (.lui (rdField w) (imm8Field w))
  | 0b10101 => .ok (.lli (rdField w) (imm8Field w))
  | 0b10110 => .ok (.nand (rdField w) (raField w) (rbField w))
  | 0b10111 => .ok (.nor (rdField w) (raField w) (rbField w))
  | 0b11001 => decodeInterrupt w
  | 0b11010 => .ok (.neg (rdField w) (raField w))
  | 0b11100 => decodeShift .asr w
  | 0b11101 => decodeShift .lsr w
  | 0b11110 => .ok (decodeControl w)
  | 0b11111 => decodeShift .lsl w
  | _ => .error .unassignedOpcode

/-! ### The encoder: don't-care bits 0 (30_encoding.md R91) -/

/-- Format A1, `ooooo ddd aaa bbb xx` (30_encoding.md R82). -/
def formatA1 (op : BitVec 5) (d a b : BitVec 3) : Word := op ++ d ++ a ++ b ++ 0#2

/-- Format A2, `ooooo ddd aaa iiiii` (30_encoding.md R83); format C has the same shape (R85). -/
def formatA2 (op : BitVec 5) (d a : BitVec 3) (imm : BitVec 5) : Word := op ++ d ++ a ++ imm

/-- Format A2 with a 4-bit count, `ooooo ddd aaa 0 iiii` (30_encoding.md R83, R95). -/
def formatShift (op : BitVec 5) (d a : BitVec 3) (count : Nat) : Word :=
  op ++ d ++ a ++ 0#1 ++ BitVec.ofNat 4 count

/-- Format B, `ooooo ddd iiiiiiii` (30_encoding.md R84); format D1 has the same shape (R86). -/
def formatB (op : BitVec 5) (d : BitVec 3) (imm : BitVec 8) : Word := op ++ d ++ imm

/-- Format E, `0 U 001 L xx aaa 00001` (30_encoding.md R88). -/
def formatE (op : BitVec 5) (src : StackReg) : Word :=
  match src with
  | .gpr r => op ++ 0#1 ++ 0#2 ++ bitsOfReg r ++ 0b00001#5
  | .lr => op ++ 1#1 ++ 0#2 ++ 0#3 ++ 0b00001#5

/-- Format F, `11001 ccc 111 xxxxx` (30_encoding.md R89). -/
def formatF (c : BitVec 3) : Word := 0b11001#5 ++ c ++ 0b111#3 ++ 0#5

/-- The word of a well-formed instruction (30_encoding.md R96 to R98). -/
def encode : Instr → Word
  | .add rd ra rb => formatA1 0b00010#5 (bitsOfReg rd) (bitsOfReg ra) (bitsOfReg rb)
  | .addi rd ra imm => formatA2 0b00110#5 (bitsOfReg rd) (bitsOfReg ra) imm
  | .addib rd imm => formatB 0b00011#5 (bitsOfReg rd) imm
  | .adc rd ra rb => formatA1 0b00100#5 (bitsOfReg rd) (bitsOfReg ra) (bitsOfReg rb)
  | .adci rd ra imm => formatA2 0b00101#5 (bitsOfReg rd) (bitsOfReg ra) imm
  | .neg rd ra => formatA2 0b11010#5 (bitsOfReg rd) (bitsOfReg ra) 0#5
  | .sub rd ra rb => formatA1 0b01010#5 (bitsOfReg rd) (bitsOfReg ra) (bitsOfReg rb)
  | .subi rd ra imm => formatA2 0b01110#5 (bitsOfReg rd) (bitsOfReg ra) imm
  | .subib rd imm => formatB 0b01011#5 (bitsOfReg rd) imm
  | .suc rd ra rb => formatA1 0b01100#5 (bitsOfReg rd) (bitsOfReg ra) (bitsOfReg rb)
  | .suci rd ra imm => formatA2 0b01101#5 (bitsOfReg rd) (bitsOfReg ra) imm
  | .cmp ra rb => formatA1 0b00111#5 0#3 (bitsOfReg ra) (bitsOfReg rb)
  | .cmpi ra imm => formatA2 0b01111#5 0#3 (bitsOfReg ra) imm
  | .and rd ra rb => formatA1 0b10000#5 (bitsOfReg rd) (bitsOfReg ra) (bitsOfReg rb)
  | .or rd ra rb => formatA1 0b10001#5 (bitsOfReg rd) (bitsOfReg ra) (bitsOfReg rb)
  | .xor rd ra rb => formatA1 0b10011#5 (bitsOfReg rd) (bitsOfReg ra) (bitsOfReg rb)
  | .not rd ra => formatA2 0b10010#5 (bitsOfReg rd) (bitsOfReg ra) 0#5
  | .nand rd ra rb => formatA1 0b10110#5 (bitsOfReg rd) (bitsOfReg ra) (bitsOfReg rb)
  | .nor rd ra rb => formatA1 0b10111#5 (bitsOfReg rd) (bitsOfReg ra) (bitsOfReg rb)
  | .lsl rd ra count => formatShift 0b11111#5 (bitsOfReg rd) (bitsOfReg ra) count
  | .lsr rd ra count => formatShift 0b11101#5 (bitsOfReg rd) (bitsOfReg ra) count
  | .asr rd ra count => formatShift 0b11100#5 (bitsOfReg rd) (bitsOfReg ra) count
  | .ldw rd ra imm => formatA2 0b00000#5 (bitsOfReg rd) (bitsOfReg ra) imm
  | .stw rd ra imm => formatA2 0b01000#5 (bitsOfReg rd) (bitsOfReg ra) imm
  | .lui rd imm => formatB 0b10100#5 (bitsOfReg rd) imm
  | .lli rd imm => formatB 0b10101#5 (bitsOfReg rd) imm
  | .br imm => formatB 0b11110#5 0b000#3 imm
  | .bne imm => formatB 0b11110#5 0b110#3 imm
  | .be imm => formatB 0b11110#5 0b111#3 imm
  | .blt imm => formatB 0b11110#5 0b100#3 imm
  | .bge imm => formatB 0b11110#5 0b101#3 imm
  | .bwl imm => formatB 0b11110#5 0b011#3 imm
  | .ret => formatB 0b11110#5 0b010#3 0#8
  | .jmp ra imm => formatA2 0b11110#5 0b001#3 (bitsOfReg ra) imm
  | .push src => formatE 0b01001#5 src
  | .pop dst => formatE 0b00001#5 dst
  | .reti => formatF 0b000#3
  | .enai => formatF 0b001#3
  | .disi => formatF 0b010#3
  | .stf => formatF 0b011#3
  | .ldf => formatF 0b100#3

/-! ### The rows of spec/opcode_table.json -/

/-- The "mask" of an instruction's row of spec/opcode_table.json: its fixed bits. -/
def Instr.rowMask : Instr → Word
  | .add _ _ _ => 0xF800#16
  | .addi _ _ _ => 0xF800#16
  | .addib _ _ => 0xF800#16
  | .adc _ _ _ => 0xF800#16
  | .adci _ _ _ => 0xF800#16
  | .neg _ _ => 0xF800#16
  | .sub _ _ _ => 0xF800#16
  | .subi _ _ _ => 0xF800#16
  | .subib _ _ => 0xF800#16
  | .suc _ _ _ => 0xF800#16
  | .suci _ _ _ => 0xF800#16
  | .cmp _ _ => 0xF800#16
  | .cmpi _ _ => 0xF800#16
  | .and _ _ _ => 0xF800#16
  | .or _ _ _ => 0xF800#16
  | .xor _ _ _ => 0xF800#16
  | .not _ _ => 0xF800#16
  | .nand _ _ _ => 0xF800#16
  | .nor _ _ _ => 0xF800#16
  | .lsl _ _ _ => 0xF810#16
  | .lsr _ _ _ => 0xF810#16
  | .asr _ _ _ => 0xF810#16
  | .ldw _ _ _ => 0xF800#16
  | .stw _ _ _ => 0xF800#16
  | .lui _ _ => 0xF800#16
  | .lli _ _ => 0xF800#16
  | .br _ => 0xFF00#16
  | .bne _ => 0xFF00#16
  | .be _ => 0xFF00#16
  | .blt _ => 0xFF00#16
  | .bge _ => 0xFF00#16
  | .bwl _ => 0xFF00#16
  | .ret => 0xFF00#16
  | .jmp _ _ => 0xFF00#16
  | .push _ => 0xF81F#16
  | .pop _ => 0xF81F#16
  | .reti => 0xFFE0#16
  | .enai => 0xFFE0#16
  | .disi => 0xFFE0#16
  | .stf => 0xFFE0#16
  | .ldf => 0xFFE0#16

/-- The "match" of an instruction's row of spec/opcode_table.json: what its fixed bits hold. -/
def Instr.rowMatch : Instr → Word
  | .add _ _ _ => 0x1000#16
  | .addi _ _ _ => 0x3000#16
  | .addib _ _ => 0x1800#16
  | .adc _ _ _ => 0x2000#16
  | .adci _ _ _ => 0x2800#16
  | .neg _ _ => 0xD000#16
  | .sub _ _ _ => 0x5000#16
  | .subi _ _ _ => 0x7000#16
  | .subib _ _ => 0x5800#16
  | .suc _ _ _ => 0x6000#16
  | .suci _ _ _ => 0x6800#16
  | .cmp _ _ => 0x3800#16
  | .cmpi _ _ => 0x7800#16
  | .and _ _ _ => 0x8000#16
  | .or _ _ _ => 0x8800#16
  | .xor _ _ _ => 0x9800#16
  | .not _ _ => 0x9000#16
  | .nand _ _ _ => 0xB000#16
  | .nor _ _ _ => 0xB800#16
  | .lsl _ _ _ => 0xF800#16
  | .lsr _ _ _ => 0xE800#16
  | .asr _ _ _ => 0xE000#16
  | .ldw _ _ _ => 0x0000#16
  | .stw _ _ _ => 0x4000#16
  | .lui _ _ => 0xA000#16
  | .lli _ _ => 0xA800#16
  | .br _ => 0xF000#16
  | .bne _ => 0xF600#16
  | .be _ => 0xF700#16
  | .blt _ => 0xF400#16
  | .bge _ => 0xF500#16
  | .bwl _ => 0xF300#16
  | .ret => 0xF200#16
  | .jmp _ _ => 0xF100#16
  | .push _ => 0x4801#16
  | .pop _ => 0x0801#16
  | .reti => 0xC8E0#16
  | .enai => 0xC9E0#16
  | .disi => 0xCAE0#16
  | .stf => 0xCBE0#16
  | .ldf => 0xCCE0#16

/-! ### The host's numbering of a table word -/

/-- The one word of an instruction given as a number with `nbits` bits; bits above `nbits` are 0. -/
def tableWord (nbits w : Nat) : Word := BitVec.ofNat 16 (w % 2 ^ nbits)

/-- What the decoder reads from a word of spec/opcode_table.json. Every instruction is one 16-bit word. -/
def decodeTableWord (nbits w : Nat) : Option Instr :=
  match decode (tableWord nbits w) with
  | .ok i => some i
  | .error _ => none

end Sys2Proof
end

