-- ==== Sys2Proof/Config.lean ====
section
/-! DEFINITION. What one implementation or one run fixes (00_scope.md R8), and the free values. An `opaque` constant has
no body: nothing can be proved of the value it stands for, so a claim holds whichever value the hardware has. -/

namespace Sys2Proof.Config

/-- `RESET_PC`, the value of PC after reset (70_reset_and_hazards.md R282). DESIGN CHOICE: no source gives it; this is
the value the spec suggests (decision D1). Unsafe. Log entry 1. -/
def resetPc : Word := 0x0000#16

/-- `ISR_VECTOR`, the constant PC takes on interrupt entry (60_exceptions.md R247). No source gives its value, so it is
left free: the reset value of the State field `isrVector`. DESIGN CHOICE, safe. Log entry 4. -/
opaque isrVector : Word

/-- `SWITCHES`, the value the host sets on the 16 switches (60_exceptions.md R262): free, the reset value of the State
field `switches`. DESIGN CHOICE, safe. Log entry 5. -/
opaque switches : Word

/-- What the serial data register holds before the first value arrives: some value (60_exceptions.md R264;
93_implementation_defined.md U8, U10), the reset value of the State field `serialData`. DESIGN CHOICE, safe. Log
entry 29. -/
opaque serialData : Word

/-- The free bits behind UNPREDICTABLE flags (00_scope.md R10; 93_implementation_defined.md U1, U5, U7). The State field
`draws` says which is read next, so every use is a fresh one. DESIGN CHOICE, safe. Log entry 7. -/
opaque freeBit : Nat → Bool

/-- The word a main memory location holds before anything is written there: some value, the same at every read until
written (10_state.md R37; 70_reset_and_hazards.md R284). DESIGN CHOICE, safe. Log entry 8. -/
opaque unwrittenWord : Word → Word

/-- Whether the assembler reports this unknown mnemonic as ERROR5 and not as ERROR1: the two have one description, and the
spec does not say which of them which line gets (30_encoding.md R117). DESIGN CHOICE, safe. Log entry 33. -/
opaque mnemonicIsError5 : List Char → Bool

/-- Whether the message about a line of a source text, with the error of this number, shows the line of the pre-processed list
and not that of the file: the spec does not say (30_encoding.md R117). DESIGN CHOICE, safe. Log entry 37. -/
opaque showsPreprocessedLine : List String → Nat → Option Nat → Bool

/-- The number a line of a source text has in the pre-processed list, whose contents are not shown (30_encoding.md R117).
DESIGN CHOICE, safe. Log entry 37. -/
opaque preprocessedLine : List String → Nat → Nat

/-- The text a message shows of a line of the file: the form in which the line is displayed is not stated (30_encoding.md R117).
DESIGN CHOICE, safe. Log entry 37. -/
opaque displayedText : String → String

/-- The text a message shows of a line that it numbers by the pre-processed list of a source text (30_encoding.md R117). DESIGN
CHOICE, safe. Log entry 37. -/
opaque preprocessedText : List String → Nat → String

/-- The settings of the parameter `SUB_CARRY`, how C is set by the subtract family (40_arithmetic.md R134). -/
inductive SubCarry where
  /-- `any`, the default: a free bit at every instruction. -/
  | any
  /-- `zero_literal`: C is 0. -/
  | zeroLiteral
  /-- `not_borrow`: C is 1 when the subtraction needs no borrow. -/
  | notBorrow
  /-- `borrow`: C is 1 when the subtraction borrows. -/
  | borrow
deriving DecidableEq, Repr

/-- What answers at an address of the platform (`MEM_MAP`, 20_memory.md R56). -/
inductive Region where
  /-- 0x0000 to 0x07FF, ordinary memory. -/
  | mainMemory
  /-- 0x0800, read only. -/
  | switches
  /-- 0x0801, write only. -/
  | leds
  /-- 0xA000, read only. -/
  | serialData
  /-- 0xA001, write only. -/
  | serialControl
  /-- Every other address: nothing is described there (20_memory.md R57). -/
  | unmapped
deriving DecidableEq, Repr

end Sys2Proof.Config
end

