-- ==== Sys2Proof/Machine/State.lean ====
section
/-! DEFINITION. The machine's state (10_state.md R20, R34, R35), the reasons a step can stop, and the state after reset.
INVENTORY.md lists every field with the rule that names it. -/

namespace Sys2Proof.Machine

open Sys2Proof

/-- The eight general purpose registers (10_state.md R21): all ordinary, none hardwired. -/
structure Regs where
  r0 : Word
  r1 : Word
  r2 : Word
  r3 : Word
  r4 : Word
  r5 : Word
  r6 : Word
  /-- The stack pointer (10_state.md R22). -/
  r7 : Word
deriving DecidableEq, Repr

/-- The four status flags (10_state.md R24). -/
structure Flags where
  /-- Negative. -/
  n : Bool
  /-- Zero. -/
  z : Bool
  /-- Overflow. -/
  v : Bool
  /-- Carry. -/
  c : Bool
deriving DecidableEq, Repr

/-- One 16-bit word at a word address: the smallest addressable unit (20_memory.md R50, R52). Log entry 9. -/
abbrev WordCell := Nat × Word

/-- Main memory: the words written or loaded so far, addresses strictly rising. An address not listed has no entry: what
a read of it gives is `memRead`'s business. Log entry 8. -/
abbrev Memory := List WordCell

/-- One serial arrival of the host's script: the value reaches the device at that instruction boundary
(60_exceptions.md R266). -/
structure Arrival where
  /-- The boundary's index: that many steps have been taken. -/
  boundary : Nat
  /-- The value that arrives. -/
  datum : Word
deriving DecidableEq, Repr

/-- The devices of the simulation environment (10_state.md R34; 60_exceptions.md R262 to R267). -/
structure Device where
  /-- `SWITCHES`, read at 0x0800; constant for a run (60_exceptions.md R262). -/
  switches : Word
  /-- The LED latch, written at 0x0801 (60_exceptions.md R263). -/
  leds : Word
  /-- The serial data register, read at 0xA000 (60_exceptions.md R264). -/
  serialData : Word
  /-- A received value is unread (60_exceptions.md R264, R265). -/
  serialUnread : Bool
  /-- `serial_int_enable`, set by a write of 0x0001 to 0xA001 (60_exceptions.md R265). -/
  serialIntEnable : Bool
  /-- The arrivals still to come, host-supplied (60_exceptions.md R266). -/
  arrivals : List Arrival
deriving DecidableEq, Repr

/-- The state of the machine. PC is the address of the next instruction between steps (60_exceptions.md R245) and the
address of the instruction itself inside a meaning (10_state.md R28). -/
structure State where
  /-- R0 to R7 (10_state.md R21). -/
  regs : Regs
  /-- The link register (10_state.md R23). -/
  lr : Word
  /-- The program counter (10_state.md R27). -/
  pc : Word
  /-- The instruction register (10_state.md R30). -/
  ir : Word
  /-- The ALU output register (10_state.md R31). Log entry 15. -/
  aluOut : Word
  /-- N, Z, V, C (10_state.md R24). -/
  flags : Flags
  /-- The interrupt enable flag (10_state.md R26). -/
  ie : Bool
  /-- Main memory (10_state.md R33). -/
  mem : Memory
  /-- The devices (10_state.md R34). -/
  dev : Device
  /-- `ISR_VECTOR`: a constant of the processor that no instruction writes (60_exceptions.md R247). Log entry 4. -/
  isrVector : Word
  /-- The parameter `SUB_CARRY` (40_arithmetic.md R134). Log entry 6. -/
  subCarry : Config.SubCarry
  /-- The MODEL's own: the index of the next boundary, which the arrival script counts (60_exceptions.md R266). -/
  boundary : Nat
  /-- The MODEL's own: which free bit is drawn next (93_implementation_defined.md U1). Log entry 7. -/
  draws : Nat
deriving DecidableEq, Repr

/-- The machine has no fault: no instruction can fault, trap or abort (60_exceptions.md R240). What the spec leaves
without behaviour it treats as `refuse` (93_implementation_defined.md). Nothing raises a fault. Log entry 26. -/
inductive Fault
deriving DecidableEq, Repr

/-- The reasons a step is refused: the run leaves the modelled domain and nothing is claimed of it. All are safe. -/
inductive Refusal where
  /-- Raised by `exec` for an instruction without a meaning. Safe. -/
  | notModelled (mnemonic : String)
  /-- Raised by `step`: the fetched word is no defined instruction (30_encoding.md R100 to R103). Safe. -/
  | undefinedWord (word : Word) (why : DecodeError)
  /-- Raised by `fetch`: PC is an address nothing answers at (20_memory.md R57). Safe. -/
  | unmappedFetch (address : Word)
  /-- Raised by `fetch`: PC is a device's address (20_memory.md R57). Safe. -/
  | deviceFetch (address : Word)
  /-- Raised by `fetch`: a main memory word never loaded or stored (70_reset_and_hazards.md R284). Safe. -/
  | unwrittenFetch (address : Word)
  /-- Raised by `memRead` at an address nothing answers at (20_memory.md R57). Safe. -/
  | unmappedRead (address : Word)
  /-- Raised by `memWrite` at an address nothing answers at (20_memory.md R57). Safe. -/
  | unmappedWrite (address : Word)
  /-- Raised by `memWrite` at 0x0800: a write to the switches is not described (60_exceptions.md R262). Safe. -/
  | writeToSwitches
  /-- Raised by `memRead` at 0x0801: a read of the LEDs is not described (60_exceptions.md R263). Safe. -/
  | readOfLeds
  /-- Raised by `memWrite` at 0xA000: a serial transmission is not described (60_exceptions.md R264). Safe. -/
  | writeToSerialData
  /-- Raised by `memRead` at 0xA001: a read of the control register is not described (60_exceptions.md R265). Safe. -/
  | readOfSerialControl
  /-- Raised by `memWrite` at 0xA001 for a value other than 0x0001 (60_exceptions.md R265). Safe. -/
  | undescribedSerialControl (value : Word)
  /-- Raised by PUSH of R7: which value is stored is not described (44_stack.md R213). Safe. -/
  | pushOfStackPointer
  /-- Raised by POP of R7: which value R7 keeps is not described (44_stack.md R213). Safe. -/
  | popOfStackPointer
deriving DecidableEq, Repr

/-- The devices after reset (10_state.md R37). LED latch: log entry 2; serial data: log entry 29; serial
flags: log entry 3; switches: log entry 5; arrivals: log entry 10. -/
def Device.reset : Device where
  switches := Config.switches
  leds := 0x0000#16
  serialData := Config.serialData
  serialUnread := false
  serialIntEnable := false
  arrivals := []

/-- The machine right after reset (10_state.md R37; 70_reset_and_hazards.md R281): IE is 0, stated by the sources. PC: log
entry 1. General registers, LR, IR, AluOut and the flags: log entry 2. Memory lists nothing: log entry 8. -/
def State.reset : State where
  regs := ⟨0x0000#16, 0x0000#16, 0x0000#16, 0x0000#16, 0x0000#16, 0x0000#16, 0x0000#16, 0x0000#16⟩
  lr := 0x0000#16
  pc := Config.resetPc
  ir := 0x0000#16
  aluOut := 0x0000#16
  flags := ⟨false, false, false, false⟩
  ie := false
  mem := []
  dev := Device.reset
  isrVector := Config.isrVector
  subCarry := .any
  boundary := 0
  draws := 0

end Sys2Proof.Machine
end

