-- ==== Sys2Proof/Machine/Operands.lean ====
section
/-! DEFINITION. Operand forms: how immediates are extended (30_encoding.md R92) and how addresses and branch targets are
formed (20_memory.md R51; 10_state.md R29). Exact integers are computed first and truncated to 16 bits last. -/

namespace Sys2Proof.Machine

open Sys2Proof

/-- The integer reduced modulo 65536 (00_scope.md R11). -/
def trunc16 (n : Int) : Word := BitVec.ofInt 16 n

/-- `sext_5`: a 5-bit immediate sign-extended to 16 bits (30_encoding.md R92). For SUCI, LDW, STW and JMP this is the
spec's decision D5, log entry 12. -/
def sext5 (imm : BitVec 5) : Word := imm.signExtend 16

/-- `sext_8`: an 8-bit immediate sign-extended to 16 bits (30_encoding.md R92). For SUBIB this is decision D5, log
entry 12. -/
def sext8 (imm : BitVec 8) : Word := imm.signExtend 16

/-- Base plus offset, the address of LDW and STW and the target of JMP (42_data_transfer.md R180;
43_control_transfer.md R198). It wraps modulo 2^16 (20_memory.md R51, log entry 20). -/
def effectiveAddress (base : Word) (imm : BitVec 5) : Word :=
  trunc16 ((base.toNat : Int) + (sext5 imm).toInt)

/-- The PC-relative target of the branches (43_control_transfer.md R190 d). -/
def branchTarget (pc : Word) (imm : BitVec 8) : Word :=
  trunc16 ((pc.toNat : Int) + (sext8 imm).toInt)

/-- The address after this one; 0x0000 follows 0xFFFF (10_state.md R27, R29). -/
def nextAddress (a : Word) : Word := trunc16 ((a.toNat : Int) + 1)

/-- The address before this one: where a push writes (44_stack.md R210). -/
def previousAddress (a : Word) : Word := trunc16 ((a.toNat : Int) - 1)

/-- LUI's value: the byte in the top half, zero below (42_data_transfer.md R183). -/
def upperByte (imm : BitVec 8) : Word := imm ++ 0x00#8

/-- LLI's value: the old top half, the byte below it (42_data_transfer.md R184). -/
def replaceLowerByte (old : Word) (imm : BitVec 8) : Word := old.extractLsb' 8 8 ++ imm

end Sys2Proof.Machine
end

