-- ==== Sys2Proof/Machine/Flags.lean ====
section
/-! DEFINITION. Results and flags of the data manipulation instructions (40_arithmetic.md R130 to R134, R140;
41_logic_shift.md R160, R167), and the flag word of STF and LDF (10_state.md R25). -/

namespace Sys2Proof.Machine

open Sys2Proof

/-- A carry bit as a number. -/
def carryNat (cin : Bool) : Nat := if cin then 1 else 0

/-- The result of an add: `trunc16(u(x) + u(y) + cin)` (40_arithmetic.md R130). -/
def addResult (x y : Word) (cin : Bool) : Word :=
  trunc16 ((x.toNat : Int) + y.toNat + carryNat cin)

/-- The result of a subtract: `trunc16(u(x) - u(y) - cin)` (40_arithmetic.md R130). -/
def subResult (x y : Word) (cin : Bool) : Word :=
  trunc16 ((x.toNat : Int) - y.toNat - carryNat cin)

/-- The signed addend of an add, `b = s(y) + cin` (40_arithmetic.md R130). -/
def addAddend (y : Word) (cin : Bool) : Int := y.toInt + carryNat cin

/-- The signed addend of a subtract, `b = -s(y) - cin` (40_arithmetic.md R130, R132 point 1). -/
def subAddend (y : Word) (cin : Bool) : Int := -y.toInt - carryNat cin

/-- N is bit 15 of the result (40_arithmetic.md R131). -/
def negativeFlag (r : Word) : Bool := r.getLsbD 15

/-- Z is 1 when the result is 0 (40_arithmetic.md R131). -/
def zeroFlag (r : Word) : Bool := decide (r = 0x0000#16)

/-- The printed overflow formula, on the first operand, the signed addend and the signed result (40_arithmetic.md R132). -/
def printedOverflow (a b r : Int) : Bool :=
  decide ((a > 0 ∧ b > 0 ∧ r < 0) ∨ (a < 0 ∧ b < 0 ∧ r > 0))

/-- The two operand cases in which V is a free draw (40_arithmetic.md R132 point 2, cases i and ii). -/
def overflowOpen (a b : Int) : Bool :=
  decide ((a = -32768 ∧ b = -32768) ∨ (a = 0 ∧ b = 32768))

/-- V after an add or a subtract; `draw` is the free bit used in the two open cases (40_arithmetic.md R132). -/
def overflowFlag (a b r : Int) (draw : Bool) : Bool :=
  if overflowOpen a b then draw else printedOverflow a b r

/-- C after an add: the carry out of bit 15 (40_arithmetic.md R133). -/
def addCarry (x y : Word) (cin : Bool) : Bool :=
  decide (x.toNat + y.toNat + carryNat cin > 65535)

/-- C after a subtract, by the parameter `SUB_CARRY`; `draw` is the free bit of the default (40_arithmetic.md R134). -/
def subCarryFlag (setting : Config.SubCarry) (x y : Word) (cin draw : Bool) : Bool :=
  match setting with
  | .any => draw
  | .zeroLiteral => false
  | .notBorrow => decide (x.toNat ≥ y.toNat + carryNat cin)
  | .borrow => decide (x.toNat < y.toNat + carryNat cin)

/-- The flags of ADD, ADDI, ADDIB, ADC, ADCI (40_arithmetic.md R148). -/
def addFlags (x y : Word) (cin drawV : Bool) : Flags where
  n := negativeFlag (addResult x y cin)
  z := zeroFlag (addResult x y cin)
  v := overflowFlag x.toInt (addAddend y cin) (addResult x y cin).toInt drawV
  c := addCarry x y cin

/-- The flags of SUB, SUBI, SUBIB, SUC, SUCI, CMP, CMPI (40_arithmetic.md R148). -/
def subFlags (setting : Config.SubCarry) (x y : Word) (cin drawV drawC : Bool) : Flags where
  n := negativeFlag (subResult x y cin)
  z := zeroFlag (subResult x y cin)
  v := overflowFlag x.toInt (subAddend y cin) (subResult x y cin).toInt drawV
  c := subCarryFlag setting x y cin drawC

/-- The result of NEG (40_arithmetic.md R140). -/
def negResult (x : Word) : Word := trunc16 (0 - (x.toNat : Int))

/-- The flags of NEG: V and C are the printed constant 0 (40_arithmetic.md R140). -/
def negFlags (x : Word) : Flags where
  n := negativeFlag (negResult x)
  z := zeroFlag (negResult x)
  v := false
  c := false

/-- The flags of a logical or shift instruction with result `r`: V and C are free draws (41_logic_shift.md R160, R167). -/
def logicFlags (r : Word) (drawV drawC : Bool) : Flags where
  n := negativeFlag r
  z := zeroFlag r
  v := drawV
  c := drawC

/-- LSL's result, `trunc16(u(x) * 2^n)` (41_logic_shift.md R168). -/
def lslResult (x : Word) (count : Nat) : Word := trunc16 ((x.toNat : Int) * 2 ^ count)

/-- LSR's result, `floor(u(x) / 2^n)` (41_logic_shift.md R169). -/
def lsrResult (x : Word) (count : Nat) : Word := trunc16 ((x.toNat / 2 ^ count : Nat) : Int)

/-- ASR's result, `trunc16(floor(s(x) / 2^n))` (41_logic_shift.md R170). -/
def asrResult (x : Word) (count : Nat) : Word := trunc16 (Int.fdiv x.toInt (2 ^ count))

/-- The flag word STF writes: N in bit 0, V in bit 1, C in bit 2, Z in bit 3, zero above (10_state.md R25). -/
def flagWord (f : Flags) : Word :=
  0#12 ++ BitVec.ofBool f.z ++ BitVec.ofBool f.c ++ BitVec.ofBool f.v ++ BitVec.ofBool f.n

/-- The flags LDF takes from a word; bits [15:4] are ignored (10_state.md R25). -/
def flagsOfWord (w : Word) : Flags where
  n := w.getLsbD 0
  z := w.getLsbD 3
  v := w.getLsbD 1
  c := w.getLsbD 2

/-- BE's condition and, negated, BNE's (43_control_transfer.md R192, R193). -/
def condEqual (f : Flags) : Bool := f.z

/-- BLT's condition, N differs from V; negated it is BGE's (43_control_transfer.md R194, R195). -/
def condLess (f : Flags) : Bool := f.n != f.v

end Sys2Proof.Machine
end

