-- ==== Sys2Proof/Machine/Ops.lean ====
section
/-! DEFINITION. The named operations over registers, memory and devices, the shared shapes of the meanings, fetching,
the boundary tick, taking the interrupt and returning from it. -/

namespace Sys2Proof.Machine

open Sys2Proof

/-! ### Registers (10_state.md R21) -/

/-- Read general purpose register `r`. -/
def Regs.get (rs : Regs) : Reg → Word
  | .r0 => rs.r0
  | .r1 => rs.r1
  | .r2 => rs.r2
  | .r3 => rs.r3
  | .r4 => rs.r4
  | .r5 => rs.r5
  | .r6 => rs.r6
  | .r7 => rs.r7

/-- Write general purpose register `r`. -/
def Regs.set (rs : Regs) (r : Reg) (v : Word) : Regs :=
  match r with
  | .r0 => { rs with r0 := v }
  | .r1 => { rs with r1 := v }
  | .r2 => { rs with r2 := v }
  | .r3 => { rs with r3 := v }
  | .r4 => { rs with r4 := v }
  | .r5 => { rs with r5 := v }
  | .r6 => { rs with r6 := v }
  | .r7 => { rs with r7 := v }

/-- `R[r]` (00_scope.md R11). -/
def State.reg (s : State) (r : Reg) : Word := s.regs.get r

/-- `R[r] <- v` (00_scope.md R11). -/
def State.setReg (s : State) (r : Reg) (v : Word) : State := { s with regs := s.regs.set r v }

/-- R7, the stack pointer (10_state.md R22). -/
def State.sp (s : State) : Word := s.reg .r7

/-- Write the stack pointer. -/
def State.setSp (s : State) (v : Word) : State := s.setReg .r7 v

/-- Write LR (10_state.md R23). -/
def State.setLr (s : State) (v : Word) : State := { s with lr := v }

/-- Write PC (10_state.md R27). -/
def State.setPc (s : State) (v : Word) : State := { s with pc := v }

/-- Write AluOut (10_state.md R31). -/
def State.setAluOut (s : State) (v : Word) : State := { s with aluOut := v }

/-- Write the four flags (10_state.md R24). -/
def State.setFlags (s : State) (f : Flags) : State := { s with flags := f }

/-- Write IE (10_state.md R26). -/
def State.setIe (s : State) (b : Bool) : State := { s with ie := b }

/-- The default increment, `pc <- trunc16(u(PC) + 1)` (10_state.md R27). -/
def State.advance (s : State) : State := s.setPc (nextAddress s.pc)

/-- The operand of a PUSH: LR or a general purpose register (44_stack.md R211). -/
def State.stackReg (s : State) : StackReg → Word
  | .gpr r => s.reg r
  | .lr => s.lr

/-- The destination of a POP: LR or a general purpose register (44_stack.md R212). -/
def State.setStackReg (s : State) (dst : StackReg) (v : Word) : State :=
  match dst with
  | .gpr r => s.setReg r v
  | .lr => s.setLr v

/-! ### Free bits for UNPREDICTABLE flags (93_implementation_defined.md U1, U5, U7; log entry 7) -/

/-- The free bit an instruction uses for V. -/
def State.drawV (s : State) : Bool := Config.freeBit s.draws

/-- The free bit an instruction uses for C, independent of the one for V. -/
def State.drawC (s : State) : Bool := Config.freeBit (s.draws + 1)

/-- Both free bits are used up: the next instruction draws fresh ones. -/
def State.spendDraws (s : State) : State := { s with draws := s.draws + 2 }

/-! ### Main memory: a strictly rising list of word cells -/

/-- The word listed at an address, if any. -/
def Memory.lookup : Memory → Nat → Option Word
  | [], _ => none
  | (k, v) :: rest, a => if k = a then some v else Memory.lookup rest a

/-- List a word at an address, in its place. -/
def Memory.insert : Memory → Nat → Word → Memory
  | [], a, v => [(a, v)]
  | (k, w) :: rest, a, v =>
    if a < k then (a, v) :: (k, w) :: rest
    else if a = k then (a, v) :: rest
    else (k, w) :: Memory.insert rest a v

/-- The word listed at a word address. -/
def Memory.read (m : Memory) (a : Word) : Option Word := Memory.lookup m a.toNat

/-- The memory with a word written at a word address. -/
def Memory.write (m : Memory) (a v : Word) : Memory := Memory.insert m a.toNat v

/-- Every address of the list is at least `low`, below `high`, and above the one before it. -/
def Memory.risingFrom : Memory → Nat → Nat → Bool
  | [], _, _ => true
  | (k, _) :: rest, low, high => decide (low ≤ k) && decide (k < high) && Memory.risingFrom rest (k + 1) high

/-- How many words main memory has: addresses 0x0000 to 0x07FF (20_memory.md R56). -/
def mainMemoryWords : Nat := 0x0800

/-- The canonical form: addresses strictly rising, all of main memory. -/
def Memory.wf (m : Memory) : Bool := Memory.risingFrom m 0 mainMemoryWords

/-! ### The platform's address map (20_memory.md R56; log entry 14) -/

/-- The address of the 16 switches (60_exceptions.md R262). -/
def switchesAddress : Word := 0x0800#16

/-- The address of the 16 LEDs (60_exceptions.md R263). -/
def ledsAddress : Word := 0x0801#16

/-- The address of the serial device's data register (60_exceptions.md R264). -/
def serialDataAddress : Word := 0xA000#16

/-- The address of the serial device's control register (60_exceptions.md R265). -/
def serialControlAddress : Word := 0xA001#16

/-- What answers at an address (20_memory.md R56). -/
def region (a : Word) : Config.Region :=
  if a.toNat < mainMemoryWords then .mainMemory
  else if a = switchesAddress then .switches
  else if a = ledsAddress then .leds
  else if a = serialDataAddress then .serialData
  else if a = serialControlAddress then .serialControl
  else .unmapped

/-! ### Devices (60_exceptions.md R262 to R267) -/

/-- The device receives a value: it replaces an unread one (60_exceptions.md R264, decision D21; log entry 24). -/
def Device.receive (d : Device) (datum : Word) : Device :=
  { d with serialData := datum, serialUnread := true }

/-- A read of 0xA000 releases the request (60_exceptions.md R264, decision D18; log entry 24). -/
def Device.markRead (d : Device) : Device := { d with serialUnread := false }

/-- `irq_pending`: nIRQ is low (60_exceptions.md R265; log entry 11). -/
def Device.irqPending (d : Device) : Bool := d.serialIntEnable && d.serialUnread

/-- The arrival has reached its boundary (60_exceptions.md R266). -/
def Arrival.due (boundary : Nat) (x : Arrival) : Bool := decide (x.boundary ≤ boundary)

/-- `dev_tick`: deliver the arrivals that are due, in script order (60_exceptions.md R267). -/
def Device.tick (boundary : Nat) (d : Device) : Device :=
  { (d.arrivals.filter (Arrival.due boundary)).foldl (fun e x => e.receive x.datum) d with
    arrivals := d.arrivals.filter (fun x => !(Arrival.due boundary x)) }

/-- What happens at an instruction boundary before the take condition is evaluated (60_exceptions.md R245, R267): the due
arrivals are delivered and the boundary is counted. -/
def State.tick (s : State) : State :=
  { s with dev := s.dev.tick s.boundary, boundary := s.boundary + 1 }

/-! ### Memory accesses (20_memory.md R55 to R57; 60_exceptions.md R267) -/

/-- The value a read of a main memory word gives: the last one written or, if none was, the free value it has held since
reset (10_state.md R37; log entry 8). -/
def State.mainWord (s : State) (a : Word) : Word :=
  match s.mem.read a with
  | some v => v
  | none => Config.unwrittenWord a

/-- `MemRead(addr, 1)` (00_scope.md R11): the value and the state after the device's side effect, if any. -/
def memRead (a : Word) (s : State) : Except Refusal (Word × State) :=
  match region a with
  | .mainMemory => .ok (s.mainWord a, s)
  | .switches => .ok (s.dev.switches, s)
  | .leds => .error .readOfLeds
  | .serialData => .ok (s.dev.serialData, { s with dev := s.dev.markRead })
  | .serialControl => .error .readOfSerialControl
  | .unmapped => .error (.unmappedRead a)

/-- The one value whose store to 0xA001 is described (60_exceptions.md R265). -/
def serialEnableValue : Word := 0x0001#16

/-- `MemWrite(addr, 1, v)` (00_scope.md R11). -/
def memWrite (a v : Word) (s : State) : Except Refusal State :=
  match region a with
  | .mainMemory => .ok { s with mem := s.mem.write a v }
  | .switches => .error .writeToSwitches
  | .leds => .ok { s with dev := { s.dev with leds := v } }
  | .serialData => .error .writeToSerialData
  | .serialControl =>
    if v = serialEnableValue then .ok { s with dev := { s.dev with serialIntEnable := true } }
    else .error (.undescribedSerialControl v)
  | .unmapped => .error (.unmappedWrite a)

/-- Instruction fetch: the word at PC into IR (20_memory.md R61; 10_state.md R30). Only main memory can be executed, and
only a word that was loaded or stored (20_memory.md R57; 70_reset_and_hazards.md R284). -/
def fetch (s : State) : Except Refusal (Word × State) :=
  match region s.pc with
  | .mainMemory =>
    match s.mem.read s.pc with
    | some w => .ok (w, { s with ir := w })
    | none => .error (.unwrittenFetch s.pc)
  | .switches => .error (.deviceFetch s.pc)
  | .leds => .error (.deviceFetch s.pc)
  | .serialData => .error (.deviceFetch s.pc)
  | .serialControl => .error (.deviceFetch s.pc)
  | .unmapped => .error (.unmappedFetch s.pc)

/-! ### The stack: full descending (44_stack.md R210) -/

/-- A push: R7 goes down by one, then the value is written where it points. -/
def pushWord (v : Word) (s : State) : Except Refusal State :=
  memWrite (previousAddress s.sp) v (s.setSp (previousAddress s.sp))

/-- A pop: the word R7 points at is read, then R7 goes up by one. -/
def popWord (s : State) : Except Refusal (Word × State) :=
  match memRead s.sp s with
  | .ok (v, t) => .ok (v, t.setSp (nextAddress s.sp))
  | .error e => .error e

/-! ### Shared shapes of the meanings -/

/-- A step's outcome from a state or a refusal. -/
def outcomeOf : Except Refusal State → Host.Outcome State Fault Refusal
  | .ok t => .next t
  | .error e => .refused e

/-- Store to an address, then go on to the next instruction (42_data_transfer.md R182; 44_stack.md R211). AluOut holds the
address (10_state.md R31; log entry 15). -/
def afterStore (address : Word) (r : Except Refusal State) : Host.Outcome State Fault Refusal :=
  match r with
  | .ok t => .next (t.setAluOut address).advance
  | .error e => .refused e

/-- Use the word that was read: `aluOut` is what AluOut holds (10_state.md R31; log entry 15), `use` what the instruction
does with the word. -/
def afterLoad (aluOut : Word) (r : Except Refusal (Word × State)) (use : Word → State → State) :
    Host.Outcome State Fault Refusal :=
  match r with
  | .ok (v, t) => .next (use v (t.setAluOut aluOut))
  | .error e => .refused e

/-- Add into a register and set all four flags (40_arithmetic.md R130 to R133). -/
def addInto (rd : Reg) (x y : Word) (cin : Bool) (s : State) : Host.Outcome State Fault Refusal :=
  .next (((s.setReg rd (addResult x y cin)).setFlags (addFlags x y cin s.drawV)).spendDraws).advance

/-- Subtract into a register and set all four flags (40_arithmetic.md R130 to R132, R134). -/
def subInto (rd : Reg) (x y : Word) (cin : Bool) (s : State) : Host.Outcome State Fault Refusal :=
  .next (((s.setReg rd (subResult x y cin)).setFlags (subFlags s.subCarry x y cin s.drawV s.drawC)).spendDraws).advance

/-- Subtract for the flags only (40_arithmetic.md R146, R147). -/
def compareWords (x y : Word) (s : State) : Host.Outcome State Fault Refusal :=
  .next ((s.setFlags (subFlags s.subCarry x y false s.drawV s.drawC)).spendDraws).advance

/-- Write a logical or shift result and its flags (41_logic_shift.md R160, R167). -/
def logicInto (rd : Reg) (r : Word) (s : State) : Host.Outcome State Fault Refusal :=
  .next (((s.setReg rd r).setFlags (logicFlags r s.drawV s.drawC)).spendDraws).advance

/-- Branch to the PC-relative target or go on (43_control_transfer.md R190 d, e). -/
def branchIf (taken : Bool) (imm : BitVec 8) (s : State) : Host.Outcome State Fault Refusal :=
  .next (if taken then s.setPc (branchTarget s.pc imm) else s.advance)

/-! ### The interrupt (60_exceptions.md R242 to R249) -/

/-- The take condition: IE = 1 and nIRQ low (60_exceptions.md R244). -/
def State.takesInterrupt (s : State) : Bool := s.ie && s.dev.irqPending

/-- Interrupt entry (60_exceptions.md R246): the address of the next instruction is pushed, IE is cleared and PC takes
`ISR_VECTOR`. Nothing else changes. Log entry 19. -/
def enterInterrupt (s : State) : Host.Outcome State Fault Refusal :=
  match pushWord s.pc s with
  | .ok t => .next ((t.setIe false).setPc s.isrVector)
  | .error e => .refused e

/-- Return from an interrupt (45_interrupt_instructions.md R221; 60_exceptions.md R249): the return address is popped into
PC. IE, the flags and LR stay. Log entry 18. -/
def returnFromInterrupt (s : State) : Host.Outcome State Fault Refusal :=
  afterLoad (nextAddress s.sp) (popWord s) (fun v t => t.setPc v)

/-! ### The host's load of a program (70_reset_and_hazards.md R285; log entry 17) -/

/-- The words placed at consecutive addresses from `base`. -/
def Memory.load (m : Memory) (base : Nat) : List Word → Memory
  | [] => m
  | w :: ws => Memory.load (Memory.insert m base w) (base + 1) ws

/-- The program image placed at `RESET_PC` upward, as the host does before reset is released. -/
def State.loadProgram (s : State) (image : List Word) : State :=
  { s with mem := s.mem.load Config.resetPc.toNat image }

/-- The word placed where the next fetch reads. -/
def State.placeWord (s : State) (w : Word) : State := { s with mem := s.mem.write s.pc w }

end Sys2Proof.Machine
end

