-- ==== Sys2Proof/Machine/Arithmetic.lean ====
section
/-! DEFINITION. The thirteen arithmetic instructions (40_arithmetic.md R135 to R147). The operands `x`, `y` and the carry
input of each are the row of the table of R130. -/

namespace Sys2Proof.Machine

open Sys2Proof

/-- ADD (40_arithmetic.md R135). -/
def execAdd (rd ra rb : Reg) (s : State) : Host.Outcome State Fault Refusal :=
  addInto rd (s.reg ra) (s.reg rb) false s

/-- ADDI (40_arithmetic.md R136). -/
def execAddi (rd ra : Reg) (imm : BitVec 5) (s : State) : Host.Outcome State Fault Refusal :=
  addInto rd (s.reg ra) (sext5 imm) false s

/-- ADDIB: Rd is source and destination (40_arithmetic.md R137). -/
def execAddib (rd : Reg) (imm : BitVec 8) (s : State) : Host.Outcome State Fault Refusal :=
  addInto rd (s.reg rd) (sext8 imm) false s

/-- ADC: the old C is added (40_arithmetic.md R138). -/
def execAdc (rd ra rb : Reg) (s : State) : Host.Outcome State Fault Refusal :=
  addInto rd (s.reg ra) (s.reg rb) s.flags.c s

/-- ADCI: the old C is added (40_arithmetic.md R139). -/
def execAdci (rd ra : Reg) (imm : BitVec 5) (s : State) : Host.Outcome State Fault Refusal :=
  addInto rd (s.reg ra) (sext5 imm) s.flags.c s

/-- NEG: V and C become the constant 0 (40_arithmetic.md R140). -/
def execNeg (rd ra : Reg) (s : State) : Host.Outcome State Fault Refusal :=
  .next ((s.setReg rd (negResult (s.reg ra))).setFlags (negFlags (s.reg ra))).advance

/-- SUB (40_arithmetic.md R141). -/
def execSub (rd ra rb : Reg) (s : State) : Host.Outcome State Fault Refusal :=
  subInto rd (s.reg ra) (s.reg rb) false s

/-- SUBI (40_arithmetic.md R142). -/
def execSubi (rd ra : Reg) (imm : BitVec 5) (s : State) : Host.Outcome State Fault Refusal :=
  subInto rd (s.reg ra) (sext5 imm) false s

/-- SUBIB: Rd is source and destination (40_arithmetic.md R143). -/
def execSubib (rd : Reg) (imm : BitVec 8) (s : State) : Host.Outcome State Fault Refusal :=
  subInto rd (s.reg rd) (sext8 imm) false s

/-- SUC: the old C is subtracted (40_arithmetic.md R144). -/
def execSuc (rd ra rb : Reg) (s : State) : Host.Outcome State Fault Refusal :=
  subInto rd (s.reg ra) (s.reg rb) s.flags.c s

/-- SUCI: the old C is subtracted (40_arithmetic.md R145). -/
def execSuci (rd ra : Reg) (imm : BitVec 5) (s : State) : Host.Outcome State Fault Refusal :=
  subInto rd (s.reg ra) (sext5 imm) s.flags.c s

/-- CMP: SUB's flags, no register written (40_arithmetic.md R146). -/
def execCmp (ra rb : Reg) (s : State) : Host.Outcome State Fault Refusal :=
  compareWords (s.reg ra) (s.reg rb) s

/-- CMPI: SUBI's flags, no register written (40_arithmetic.md R147). -/
def execCmpi (ra : Reg) (imm : BitVec 5) (s : State) : Host.Outcome State Fault Refusal :=
  compareWords (s.reg ra) (sext5 imm) s

end Sys2Proof.Machine
end

