-- ==== Sys2Proof/Machine/ControlTransfer.lean ====
section
/-! DEFINITION. The eight control transfer instructions (43_control_transfer.md R190 to R198). No flag changes. -/

namespace Sys2Proof.Machine

open Sys2Proof

/-- BR (43_control_transfer.md R191). -/
def execBr (imm : BitVec 8) (s : State) : Host.Outcome State Fault Refusal :=
  branchIf true imm s

/-- BNE: taken when Z is 0 (43_control_transfer.md R192). -/
def execBne (imm : BitVec 8) (s : State) : Host.Outcome State Fault Refusal :=
  branchIf (!condEqual s.flags) imm s

/-- BE: taken when Z is 1 (43_control_transfer.md R193). -/
def execBe (imm : BitVec 8) (s : State) : Host.Outcome State Fault Refusal :=
  branchIf (condEqual s.flags) imm s

/-- BLT: taken when N differs from V (43_control_transfer.md R194). -/
def execBlt (imm : BitVec 8) (s : State) : Host.Outcome State Fault Refusal :=
  branchIf (condLess s.flags) imm s

/-- BGE: taken when N equals V (43_control_transfer.md R195). -/
def execBge (imm : BitVec 8) (s : State) : Host.Outcome State Fault Refusal :=
  branchIf (!condLess s.flags) imm s

/-- BWL: LR takes the address after the BWL (43_control_transfer.md R196). -/
def execBwl (imm : BitVec 8) (s : State) : Host.Outcome State Fault Refusal :=
  .next ((s.setLr (nextAddress s.pc)).setPc (branchTarget s.pc imm))

/-- RET (43_control_transfer.md R197). -/
def execRet (s : State) : Host.Outcome State Fault Refusal :=
  .next (s.setPc s.lr)

/-- JMP: the target is absolute (43_control_transfer.md R198). -/
def execJmp (ra : Reg) (imm : BitVec 5) (s : State) : Host.Outcome State Fault Refusal :=
  .next (s.setPc (effectiveAddress (s.reg ra) imm))

end Sys2Proof.Machine
end

