-- ==== Sys2Proof/Machine/DataTransfer.lean ====
section
/-! DEFINITION. LDW, STW, LUI and LLI (42_data_transfer.md R180 to R184). No flag changes. -/

namespace Sys2Proof.Machine

open Sys2Proof

/-- LDW: the address uses the old Ra, also when Rd is Ra (42_data_transfer.md R181). -/
def execLdw (rd ra : Reg) (imm : BitVec 5) (s : State) : Host.Outcome State Fault Refusal :=
  afterLoad (effectiveAddress (s.reg ra) imm) (memRead (effectiveAddress (s.reg ra) imm) s)
    (fun v t => (t.setReg rd v).advance)

/-- STW: Rd is the source of the data (42_data_transfer.md R182). -/
def execStw (rd ra : Reg) (imm : BitVec 5) (s : State) : Host.Outcome State Fault Refusal :=
  afterStore (effectiveAddress (s.reg ra) imm) (memWrite (effectiveAddress (s.reg ra) imm) (s.reg rd) s)

/-- LUI (42_data_transfer.md R183). -/
def execLui (rd : Reg) (imm : BitVec 8) (s : State) : Host.Outcome State Fault Refusal :=
  .next (s.setReg rd (upperByte imm)).advance

/-- LLI (42_data_transfer.md R184). -/
def execLli (rd : Reg) (imm : BitVec 8) (s : State) : Host.Outcome State Fault Refusal :=
  .next (s.setReg rd (replaceLowerByte (s.reg rd) imm)).advance

end Sys2Proof.Machine
end

