-- ==== Sys2Proof/Machine/Interrupts.lean ====
section
/-! DEFINITION. RETI, ENAI, DISI, STF and LDF (45_interrupt_instructions.md R220 to R225). None is privileged
(60_exceptions.md R260). -/

namespace Sys2Proof.Machine

open Sys2Proof

/-- RETI (45_interrupt_instructions.md R221). -/
def execReti (s : State) : Host.Outcome State Fault Refusal :=
  returnFromInterrupt s

/-- ENAI (45_interrupt_instructions.md R222). -/
def execEnai (s : State) : Host.Outcome State Fault Refusal :=
  .next (s.setIe true).advance

/-- DISI (45_interrupt_instructions.md R223). -/
def execDisi (s : State) : Host.Outcome State Fault Refusal :=
  .next (s.setIe false).advance

/-- STF pushes the flag word (45_interrupt_instructions.md R224). -/
def execStf (s : State) : Host.Outcome State Fault Refusal :=
  afterStore (previousAddress s.sp) (pushWord (flagWord s.flags) s)

/-- LDF pops the flag word (45_interrupt_instructions.md R225). -/
def execLdf (s : State) : Host.Outcome State Fault Refusal :=
  afterLoad (nextAddress s.sp) (popWord s) (fun v t => (t.setFlags (flagsOfWord v)).advance)

end Sys2Proof.Machine
end

