-- ==== Sys2Proof/Machine/LogicShift.lean ====
section
/-! DEFINITION. The six logical and three shift instructions (41_logic_shift.md R160 to R170). -/

namespace Sys2Proof.Machine

open Sys2Proof

/-- AND (41_logic_shift.md R161). -/
def execAnd (rd ra rb : Reg) (s : State) : Host.Outcome State Fault Refusal :=
  logicInto rd (s.reg ra &&& s.reg rb) s

/-- OR (41_logic_shift.md R162). -/
def execOr (rd ra rb : Reg) (s : State) : Host.Outcome State Fault Refusal :=
  logicInto rd (s.reg ra ||| s.reg rb) s

/-- XOR (41_logic_shift.md R163). -/
def execXor (rd ra rb : Reg) (s : State) : Host.Outcome State Fault Refusal :=
  logicInto rd (s.reg ra ^^^ s.reg rb) s

/-- NOT (41_logic_shift.md R164). -/
def execNot (rd ra : Reg) (s : State) : Host.Outcome State Fault Refusal :=
  logicInto rd (~~~(s.reg ra)) s

/-- NAND (41_logic_shift.md R165). -/
def execNand (rd ra rb : Reg) (s : State) : Host.Outcome State Fault Refusal :=
  logicInto rd (~~~(s.reg ra &&& s.reg rb)) s

/-- NOR (41_logic_shift.md R166). -/
def execNor (rd ra rb : Reg) (s : State) : Host.Outcome State Fault Refusal :=
  logicInto rd (~~~(s.reg ra ||| s.reg rb)) s

/-- LSL (41_logic_shift.md R168). -/
def execLsl (rd ra : Reg) (count : Nat) (s : State) : Host.Outcome State Fault Refusal :=
  logicInto rd (lslResult (s.reg ra) count) s

/-- LSR (41_logic_shift.md R169). -/
def execLsr (rd ra : Reg) (count : Nat) (s : State) : Host.Outcome State Fault Refusal :=
  logicInto rd (lsrResult (s.reg ra) count) s

/-- ASR (41_logic_shift.md R170). -/
def execAsr (rd ra : Reg) (count : Nat) (s : State) : Host.Outcome State Fault Refusal :=
  logicInto rd (asrResult (s.reg ra) count) s

end Sys2Proof.Machine
end

