-- ==== Sys2Proof/Machine/Stack.lean ====
section
/-! DEFINITION. PUSH and POP (44_stack.md R210 to R213). No flag changes. -/

namespace Sys2Proof.Machine

open Sys2Proof

/-- PUSH (44_stack.md R211). `PUSH R7` is refused (44_stack.md R213; log entry 13). -/
def execPush (src : StackReg) (s : State) : Host.Outcome State Fault Refusal :=
  if src = .gpr .r7 then .refused .pushOfStackPointer
  else afterStore (previousAddress s.sp) (pushWord (s.stackReg src) s)

/-- POP (44_stack.md R212). `POP R7` is refused (44_stack.md R213; log entry 13). -/
def execPop (dst : StackReg) (s : State) : Host.Outcome State Fault Refusal :=
  if dst = .gpr .r7 then .refused .popOfStackPointer
  else afterLoad (nextAddress s.sp) (popWord s) (fun v t => (t.setStackReg dst v).advance)

end Sys2Proof.Machine
end

