-- ==== Sys2Proof/Machine/Dispatch.lean ====
section
/-! DEFINITION. One arm per instruction: its meaning. -/

namespace Sys2Proof.Machine

open Sys2Proof

def exec (i : Instr) (s : State) : Host.Outcome State Fault Refusal :=
  match i with
  | .add rd ra rb => Sys2Proof.Machine.execAdd rd ra rb s
  | .addi rd ra imm => Sys2Proof.Machine.execAddi rd ra imm s
  | .addib rd imm => Sys2Proof.Machine.execAddib rd imm s
  | .adc rd ra rb => Sys2Proof.Machine.execAdc rd ra rb s
  | .adci rd ra imm => Sys2Proof.Machine.execAdci rd ra imm s
  | .neg rd ra => Sys2Proof.Machine.execNeg rd ra s
  | .sub rd ra rb => Sys2Proof.Machine.execSub rd ra rb s
  | .subi rd ra imm => Sys2Proof.Machine.execSubi rd ra imm s
  | .subib rd imm => Sys2Proof.Machine.execSubib rd imm s
  | .suc rd ra rb => Sys2Proof.Machine.execSuc rd ra rb s
  | .suci rd ra imm => Sys2Proof.Machine.execSuci rd ra imm s
  | .cmp ra rb => Sys2Proof.Machine.execCmp ra rb s
  | .cmpi ra imm => Sys2Proof.Machine.execCmpi ra imm s
  | .and rd ra rb => Sys2Proof.Machine.execAnd rd ra rb s
  | .or rd ra rb => Sys2Proof.Machine.execOr rd ra rb s
  | .xor rd ra rb => Sys2Proof.Machine.execXor rd ra rb s
  | .not rd ra => Sys2Proof.Machine.execNot rd ra s
  | .nand rd ra rb => Sys2Proof.Machine.execNand rd ra rb s
  | .nor rd ra rb => Sys2Proof.Machine.execNor rd ra rb s
  | .lsl rd ra count => Sys2Proof.Machine.execLsl rd ra count s
  | .lsr rd ra count => Sys2Proof.Machine.execLsr rd ra count s
  | .asr rd ra count => Sys2Proof.Machine.execAsr rd ra count s
  | .ldw rd ra imm => Sys2Proof.Machine.execLdw rd ra imm s
  | .stw rd ra imm => Sys2Proof.Machine.execStw rd ra imm s
  | .lui rd imm => Sys2Proof.Machine.execLui rd imm s
  | .lli rd imm => Sys2Proof.Machine.execLli rd imm s
  | .br imm => Sys2Proof.Machine.execBr imm s
  | .bne imm => Sys2Proof.Machine.execBne imm s
  | .be imm => Sys2Proof.Machine.execBe imm s
  | .blt imm => Sys2Proof.Machine.execBlt imm s
  | .bge imm => Sys2Proof.Machine.execBge imm s
  | .bwl imm => Sys2Proof.Machine.execBwl imm s
  | .ret => Sys2Proof.Machine.execRet s
  | .jmp ra imm => Sys2Proof.Machine.execJmp ra imm s
  | .push src => Sys2Proof.Machine.execPush src s
  | .pop dst => Sys2Proof.Machine.execPop dst s
  | .reti => Sys2Proof.Machine.execReti s
  | .enai => Sys2Proof.Machine.execEnai s
  | .disi => Sys2Proof.Machine.execDisi s
  | .stf => Sys2Proof.Machine.execStf s
  | .ldf => Sys2Proof.Machine.execLdf s

end Sys2Proof.Machine
end

