-- ==== Sys2Proof/Machine/Step.lean ====
section
/-! DEFINITION. One step (60_exceptions.md R244, R245): at the boundary the due arrivals are delivered, then either the
interrupt is taken or one instruction is fetched, decoded and executed. -/

namespace Sys2Proof.Machine

open Sys2Proof

/-- Fetch, decode and execute one instruction (20_memory.md R61; 30_encoding.md R99). -/
def runInstruction (s : State) : Host.Outcome State Fault Refusal :=
  match fetch s with
  | .error e => .refused e
  | .ok (w, t) =>
    match decode w with
    | .error why => .refused (.undefinedWord w why)
    | .ok i => exec i t

/-- One step of the machine (60_exceptions.md R245). -/
def step (s : State) : Host.Outcome State Fault Refusal :=
  if s.tick.takesInterrupt then enterInterrupt s.tick else runInstruction s.tick

/-- The state with a word of the opcode table stored where the next fetch reads. Log entry 17. -/
def State.withFetchWord (s : State) (nbits w : Nat) : State := s.placeWord (tableWord nbits w)

end Sys2Proof.Machine
end

