-- ==== Sys2Proof/Machine/Assembler.lean ====
section
/-! DEFINITION. The assembler's input language as far as the spec describes it (30_encoding.md R93, R110 to R117), and hand
assembly: one word per instruction line at consecutive addresses (30_encoding.md R119). What the spec does not show, the
words the real assembler adds for `NOP`, for a branch out of range and for the set-up of an ISR, is not produced here.
Log entries 28 and 31 to 38. -/

namespace Sys2Proof.Machine

open Sys2Proof

/-- A token of a source line. -/
abbrev Token := List Char

/-- Why a source text has no image (30_encoding.md R117). -/
inductive AsmError where
  /-- ERROR1. -/
  | unknownMnemonic (mnemonic : Token)
  /-- ERROR2. -/
  | unknownRegister (operand : Token)
  /-- ERROR3: an unknown mnemonic that begins as the branches do. DESIGN CHOICE, log entry 33. -/
  | unknownBranchCondition (mnemonic : Token)
  /-- ERROR4. -/
  | undefinedLabel (label : Token)
  /-- ERROR5, whose description is that of ERROR1. -/
  | unrecognisedMnemonic (mnemonic : Token)
  /-- ERROR6. -/
  | shiftCount (operand : Token)
  /-- ERROR7. -/
  | immediateTooLarge (operand : Token)
  /-- ERROR8. -/
  | byteTooLarge (operand : Token)
  /-- ERROR9. The sequence the assembler inserts instead is not shown (30_encoding.md R116). DESIGN CHOICE, log entry 33. -/
  | branchOutOfRange (label : Token)
  /-- ERROR10. -/
  | duplicateLabel (label : Token)
  /-- ERROR11. -/
  | branchIntoIsr (label : Token)
  /-- ERROR12. -/
  | multipleIsrs
  /-- ERROR13. -/
  | badDefine
  /-- ERROR14. -/
  | noUnusedRegister
  /-- ERROR15. -/
  | notEnoughOperands (mnemonic : Token)
  /-- More operands than the syntax line of the page has (30_encoding.md R112). No code of R117. DESIGN CHOICE, log entry 33. -/
  | tooManyOperands (mnemonic : Token)
  /-- The ISR does not finish with a RETI, as it must (30_encoding.md R115). No code of R117. -/
  | isrWithoutReti
  /-- `NOP` is accepted by the assembler; the word it produces is not given (30_encoding.md R104). No code of R117. -/
  | nopNotShown
deriving DecidableEq, Repr

/-- The error's number in the list of the newest edition, where it has one (30_encoding.md R117). -/
def AsmError.number : AsmError → Option Nat
  | .unknownMnemonic _ => some 1
  | .unknownRegister _ => some 2
  | .unknownBranchCondition _ => some 3
  | .undefinedLabel _ => some 4
  | .unrecognisedMnemonic _ => some 5
  | .shiftCount _ => some 6
  | .immediateTooLarge _ => some 7
  | .byteTooLarge _ => some 8
  | .branchOutOfRange _ => some 9
  | .duplicateLabel _ => some 10
  | .branchIntoIsr _ => some 11
  | .multipleIsrs => some 12
  | .badDefine => some 13
  | .noUnusedRegister => some 14
  | .notEnoughOperands _ => some 15
  | .tooManyOperands _ => none
  | .isrWithoutReti => none
  | .nopNotShown => none

/-- The brief description displayed with the error (30_encoding.md R117); the last three errors are this model's. -/
def AsmError.description : AsmError → String
  | .unknownMnemonic _ => "Instruction mnemonic is not recognised"
  | .unknownRegister _ => "Register code within instruction is not recognised"
  | .unknownBranchCondition _ => "Branch condition code is not recognised"
  | .undefinedLabel _ => "Attempting to branch to undefined location"
  | .unrecognisedMnemonic _ => "Instruction mnemonic is not recognised"
  | .shiftCount _ => "Attempting to shift by more than 16 or perform a negative shift"
  | .immediateTooLarge _ =>
    "Magnitude of immediate value for ADDI, ADCI, SUBI, SUCI, LDW, STW, CMPI or JMP is too large"
  | .byteTooLarge _ => "Magnitude of immediate value for ADDIB, SUBIB, LUI or LLI is too large"
  | .branchOutOfRange _ => "Attempting to jump more than 127 forward or 128 backwards"
  | .duplicateLabel _ => "Duplicate symbolic link names"
  | .branchIntoIsr _ => "Illegal branch to ISR"
  | .multipleIsrs => "Multiple ISRs in file"
  | .badDefine => "Invalid formatting for .define directive"
  | .noUnusedRegister => "Could not find empty register in first 10 lines for automated ISR setup"
  | .notEnoughOperands _ => "Instruction does not have enough operands"
  | .tooManyOperands _ => "Instruction has too many operands"
  | .isrWithoutReti => "ISR does not finish with a RETI instruction"
  | .nopNotShown => "The word of NOP is not shown"

/-- Why assembly stops, and the line of the assembly file where the error occurred (30_encoding.md R117). Lines count from 1. -/
structure AsmFailure where
  line : Nat
  error : AsmError
deriving DecidableEq, Repr

/-- The line number of a message (30_encoding.md R117). -/
inductive LineNumber where
  /-- `f`: a line number in the assembly file. -/
  | file (n : Nat)
  /-- `p`: one in the pre-processed code list. -/
  | preprocessed (n : Nat)
deriving DecidableEq, Repr

/-- What is displayed before exiting: the error number, a brief description and the line it occurred on (30_encoding.md
R117), the line by its number and, as the example shows after `->`, by its text. -/
structure AsmMessage where
  number : Option Nat
  wording : String
  line : LineNumber
  text : String
deriving DecidableEq, Repr

/-- The words of a message: those of the example for ERROR1, for every other error the description of the list (30_encoding.md
R117). DESIGN CHOICE, log entry 37. -/
def AsmError.wording (e : AsmError) : String :=
  if e.number = some 1 then "Unrecognised Mneumonic" else e.description

/-- Does the message show the line of the pre-processed list? ERROR1 shows the file's, as the rule's example does; for another
error it is free (30_encoding.md R117). Log entry 37. -/
def AsmFailure.showsPreprocessed (source : List String) (f : AsmFailure) : Bool :=
  decide (f.error.number ≠ some 1) && Config.showsPreprocessedLine source f.line f.error.number

/-- The line number displayed: that of the file, or the free one of the pre-processed list (30_encoding.md R117). Log entry 37. -/
def AsmFailure.lineNumber (source : List String) (f : AsmFailure) : LineNumber :=
  if f.showsPreprocessed source then .preprocessed (Config.preprocessedLine source f.line) else .file f.line

/-- The line's text as displayed, in a form that is free: that of the file's line, or of the one in the pre-processed list
(30_encoding.md R117). Log entry 37. -/
def AsmFailure.lineText (source : List String) (f : AsmFailure) : String :=
  if f.showsPreprocessed source then Config.preprocessedText source f.line
  else Config.displayedText (source.getD (f.line - 1) "")

/-- The message of a failure (30_encoding.md R117). -/
def AsmFailure.message (source : List String) (f : AsmFailure) : AsmMessage :=
  ⟨f.error.number, f.error.wording, f.lineNumber source, f.lineText source⟩

/-- A line number as displayed: its letter, then the number (30_encoding.md R117). -/
def LineNumber.display : LineNumber → String
  | .file n => "f" ++ Nat.repr n
  | .preprocessed n => "p" ++ Nat.repr n

/-- The code of an error as displayed; an error of this model's own has no number. -/
def displayCode : Option Nat → String
  | some n => "ERROR" ++ Nat.repr n
  | none => "ERROR"

/-- The message as displayed, in the form of the rule's example (30_encoding.md R117). -/
def AsmMessage.display (m : AsmMessage) : String :=
  displayCode m.number ++ ": " ++ m.wording ++ " lineNo: " ++ m.line.display ++ " -> " ++ m.text

/-! ### Lines to tokens (30_encoding.md R110) -/

/-- Commas, spaces and square brackets separate tokens (30_encoding.md R110). A tab does so too: DESIGN CHOICE, log entry
28. -/
def isSeparator (c : Char) : Bool :=
  c == ',' || c == ' ' || c == '\t' || c == '[' || c == ']'

/-- A comment begins with either of two marks. -/
def startsComment (c : Char) : Bool := c == ':' || c == ';'

/-- The token collected so far, if any. -/
def flushToken (current : Token) : List Token := if current = [] then [] else [current]

/-- The tokens of the rest of a line after a partly read token. -/
def tokensFrom : List Char → Token → List Token
  | [], current => flushToken current
  | c :: cs, current =>
    if startsComment c then flushToken current
    else if isSeparator c then flushToken current ++ tokensFrom cs []
    else tokensFrom cs (current ++ [c])

/-- The tokens of a source line. -/
def lineTokens (line : String) : List Token := tokensFrom line.toList []

/-! ### Operands -/

/-- The register names the assembler knows, in upper case (30_encoding.md R111). -/
def registerNames : List (String × Reg) :=
  [("R0", .r0), ("R1", .r1), ("R2", .r2), ("R3", .r3), ("R4", .r4), ("R5", .r5), ("R6", .r6), ("R7", .r7), ("SP", .r7)]

/-- The value listed first under a name. -/
def findNamed {α : Type} (name : Token) : List (Token × α) → Option α
  | [] => none
  | (n, x) :: rest => if n = name then some x else findNamed name rest

/-- A register operand: a `.define` name, else a register name in either case (30_encoding.md R111, R114). That the names
of `.define` come first is a DESIGN CHOICE, log entry 28. -/
def parseReg (defines : List (Token × Reg)) (t : Token) : Except AsmError Reg :=
  match findNamed t defines with
  | some r => .ok r
  | none =>
    match findNamed (t.map Char.toUpper) (registerNames.map (fun p => (p.1.toList, p.2))) with
    | some r => .ok r
    | none => .error (.unknownRegister t)

/-- Decimal digits after a number read so far. -/
def parseDigits : Token → Nat → Option Nat
  | [], acc => some acc
  | c :: cs, acc => if c.isDigit then parseDigits cs (acc * 10 + (c.toNat - '0'.toNat)) else none

/-- A decimal number, the `#` optional (30_encoding.md R93). A minus sign is accepted; the sources show none. -/
def parseNumber (t : Token) : Option Int :=
  match (if t.head? = some '#' then t.tail else t) with
  | [] => none
  | c :: cs =>
    if c = '-' then (if cs = [] then none else (parseDigits cs 0).map (fun n => -(n : Int)))
    else (parseDigits (c :: cs) 0).map (fun n => (n : Int))

/-- A number that fits a field of `width` bits read as signed or as unsigned; the limits are not stated (30_encoding.md
R93, R117; log entry 28). An operand that is no decimal number gets the error of one that is too large. DESIGN CHOICE, log
entry 34. -/
def parseField (width : Nat) (tooLarge : Token → AsmError) (t : Token) : Except AsmError (BitVec width) :=
  match parseNumber t with
  | some n => if -(2 ^ (width - 1) : Int) ≤ n ∧ n < 2 ^ width then .ok (BitVec.ofInt width n) else .error (tooLarge t)
  | none => .error (tooLarge t)

/-- A shift count, 0 to 15 (30_encoding.md R95). An operand that is no decimal number gets the error of a count out of range.
DESIGN CHOICE, log entry 34. -/
def parseCount (t : Token) : Except AsmError Nat :=
  match parseNumber t with
  | some n => if 0 ≤ n ∧ n < 16 then .ok n.toNat else .error (.shiftCount t)
  | none => .error (.shiftCount t)

/-- The operand of PUSH or POP: `LR` or a register (30_encoding.md R111). `LR` is the link register here even where a
`.define` gives that name to a register. DESIGN CHOICE, log entry 35. -/
def parseStackReg (defines : List (Token × Reg)) (t : Token) : Except AsmError StackReg :=
  if t.map Char.toUpper = "LR".toList then .ok .lr
  else
    match parseReg defines t with
    | .ok r => .ok (.gpr r)
    | .error e => .error e

/-! ### Instruction syntax (30_encoding.md R112) -/

/-- The operand lists of the syntax lines. -/
inductive SyntaxForm where
  /-- `Rd, Ra, Rb` -/
  | threeRegs (make : Reg → Reg → Reg → Instr)
  /-- `Rd, Ra, #imm5` -/
  | twoRegsImm (make : Reg → Reg → BitVec 5 → Instr)
  /-- `Rd, Ra, #imm4` -/
  | twoRegsCount (make : Reg → Reg → Nat → Instr)
  /-- `Rd, #imm8` -/
  | regByte (make : Reg → BitVec 8 → Instr)
  /-- `Rd, Ra` -/
  | twoRegs (make : Reg → Reg → Instr)
  /-- `Ra, #imm5` -/
  | regImm (make : Reg → BitVec 5 → Instr)
  /-- `LABEL` -/
  | label (make : BitVec 8 → Instr)
  /-- `Ra` or `LR` -/
  | stack (make : StackReg → Instr)
  /-- no operand -/
  | bare (i : Instr)

/-- Mnemonics and syntax of 40_arithmetic.md (30_encoding.md R112). -/
def arithmeticSyntax : List (String × SyntaxForm) :=
  [("ADD", SyntaxForm.threeRegs Instr.add),
   ("ADDI", SyntaxForm.twoRegsImm Instr.addi),
   ("ADDIB", SyntaxForm.regByte Instr.addib),
   ("ADC", SyntaxForm.threeRegs Instr.adc),
   ("ADCI", SyntaxForm.twoRegsImm Instr.adci),
   ("NEG", SyntaxForm.twoRegs Instr.neg),
   ("SUB", SyntaxForm.threeRegs Instr.sub),
   ("SUBI", SyntaxForm.twoRegsImm Instr.subi),
   ("SUBIB", SyntaxForm.regByte Instr.subib),
   ("SUC", SyntaxForm.threeRegs Instr.suc),
   ("SUCI", SyntaxForm.twoRegsImm Instr.suci),
   ("CMP", SyntaxForm.twoRegs Instr.cmp),
   ("CMPI", SyntaxForm.regImm Instr.cmpi)]

/-- Mnemonics and syntax of 41_logic_shift.md (30_encoding.md R112). -/
def logicSyntax : List (String × SyntaxForm) :=
  [("AND", SyntaxForm.threeRegs Instr.and),
   ("OR", SyntaxForm.threeRegs Instr.or),
   ("XOR", SyntaxForm.threeRegs Instr.xor),
   ("NOT", SyntaxForm.twoRegs Instr.not),
   ("NAND", SyntaxForm.threeRegs Instr.nand),
   ("NOR", SyntaxForm.threeRegs Instr.nor),
   ("LSL", SyntaxForm.twoRegsCount Instr.lsl),
   ("LSR", SyntaxForm.twoRegsCount Instr.lsr),
   ("ASR", SyntaxForm.twoRegsCount Instr.asr)]

/-- Mnemonics and syntax of 42_data_transfer.md, 43_control_transfer.md (30_encoding.md R112). -/
def transferSyntax : List (String × SyntaxForm) :=
  [("LDW", SyntaxForm.twoRegsImm Instr.ldw),
   ("STW", SyntaxForm.twoRegsImm Instr.stw),
   ("LUI", SyntaxForm.regByte Instr.lui),
   ("LLI", SyntaxForm.regByte Instr.lli),
   ("BR", SyntaxForm.label Instr.br),
   ("BNE", SyntaxForm.label Instr.bne),
   ("BE", SyntaxForm.label Instr.be),
   ("BLT", SyntaxForm.label Instr.blt),
   ("BGE", SyntaxForm.label Instr.bge),
   ("BWL", SyntaxForm.label Instr.bwl),
   ("RET", SyntaxForm.bare Instr.ret),
   ("JMP", SyntaxForm.regImm Instr.jmp)]

/-- Mnemonics and syntax of 44_stack.md, 45_interrupt_instructions.md (30_encoding.md R112). -/
def stackSyntax : List (String × SyntaxForm) :=
  [("PUSH", SyntaxForm.stack Instr.push),
   ("POP", SyntaxForm.stack Instr.pop),
   ("RETI", SyntaxForm.bare Instr.reti),
   ("ENAI", SyntaxForm.bare Instr.enai),
   ("DISI", SyntaxForm.bare Instr.disi),
   ("STF", SyntaxForm.bare Instr.stf),
   ("LDF", SyntaxForm.bare Instr.ldf)]

/-- All 41 mnemonics (30_encoding.md R96, R112). -/
def syntaxTable : List (String × SyntaxForm) :=
  List.append arithmeticSyntax (List.append logicSyntax (List.append transferSyntax stackSyntax))

/-! ### The parts of a source text (30_encoding.md R110, R113, R114) -/

/-- A line of the assembly file: its number, counted from 1, and its tokens. -/
structure SourceLine where
  number : Nat
  tokens : List Token
deriving DecidableEq, Repr

/-- The lines of a source text, the first with this number. -/
def numberLines : List String → Nat → List SourceLine
  | [], _ => []
  | l :: ls, n => ⟨n, lineTokens l⟩ :: numberLines ls (n + 1)

/-- The lines of the assembly file. -/
def sourceLines (source : List String) : List SourceLine := numberLines source 1

/-- The word that begins a definition (30_encoding.md R114). -/
def defineDirective : Token := ".define".toList

/-- The label a line begins with, if any (30_encoding.md R113). -/
def labelOf (tokens : List Token) : Option Token :=
  match tokens with
  | [] => none
  | t :: _ => if t = defineDirective then none else if t.head? = some '.' then some t else none

/-- The mnemonic and operands of a line; a `.define` line, a label-only line and an empty line have none (30_encoding.md
R119). -/
def codeOf (tokens : List Token) : List Token :=
  match tokens with
  | [] => []
  | t :: rest => if t = defineDirective then [] else if t.head? = some '.' then rest else tokens

/-- The operands of a `.define` directive: `NAME REGISTER` (30_encoding.md R114). -/
def parseDefine (operands : List Token) : Option (Token × Reg) :=
  match operands with
  | [name, reg] =>
    match parseReg [] reg with
    | .ok r => some (name, r)
    | .error _ => none
  | _ => none

/-- A definition comes into force. It replaces what the name meant, and an earlier name of the same register is valid no
longer: only one is valid at a time (30_encoding.md R114). -/
def addDefine (name : Token) (r : Reg) (defines : List (Token × Reg)) : List (Token × Reg) :=
  (name, r) :: defines.filter (fun d => decide (d.1 ≠ name) && decide (d.2 ≠ r))

/-- Is the line a definition? -/
def isDefine (tokens : List Token) : Bool := decide (tokens.head? = some defineDirective)

/-- The names in force after a line. -/
def definesAfter (tokens : List Token) (defines : List (Token × Reg)) : List (Token × Reg) :=
  if isDefine tokens then
    match parseDefine tokens.tail with
    | some d => addDefine d.1 d.2 defines
    | none => defines
  else defines

/-- An instruction line. -/
structure AsmLine where
  /-- Its line of the assembly file. -/
  line : Nat
  /-- Its address, as a distance from the first word. -/
  address : Nat
  mnemonic : Token
  operands : List Token
  /-- The `.define` names in force at it. -/
  defines : List (Token × Reg)
deriving DecidableEq, Repr

/-- The instruction lines from an address on: each takes one word, in source order (30_encoding.md R119). -/
def codeLines : List SourceLine → Nat → List (Token × Reg) → List AsmLine
  | [], _, _ => []
  | l :: ls, address, defines =>
    match codeOf l.tokens with
    | [] => codeLines ls address (definesAfter l.tokens defines)
    | m :: ops => ⟨l.number, address, m, ops, defines⟩ :: codeLines ls (address + 1) defines

/-- The instruction lines of a source text, from address 0 on. -/
def programLines (source : List String) : List AsmLine := codeLines (sourceLines source) 0 []

/-- How many words a line produces (30_encoding.md R119). -/
def lineWords (tokens : List Token) : Nat := if codeOf tokens = [] then 0 else 1

/-- The labels and the addresses of the instructions they name (30_encoding.md R113). A label with no instruction on its line
names the next one, and with none after it the address after the last word. DESIGN CHOICE, log entry 38. -/
def labelTable : List SourceLine → Nat → List (Token × Nat)
  | [], _ => []
  | l :: ls, address =>
    match labelOf l.tokens with
    | some t => (t, address) :: labelTable ls (address + lineWords l.tokens)
    | none => labelTable ls (address + lineWords l.tokens)

/-! ### Checks on the whole text (30_encoding.md R113 to R115, R117) -/

/-- The ISR's label in either spelling (30_encoding.md R115). -/
def isIsrLabel (t : Token) : Bool := t == ".isr".toList || t == ".ISR".toList

/-- Every definition is well formed (ERROR13), there is one ISR at most (ERROR12) and every label is new (ERROR10); `seen`
holds the labels of the lines above. -/
def checkLines : List SourceLine → List Token → Except AsmFailure Unit
  | [], _ => .ok ()
  | l :: ls, seen =>
    if isDefine l.tokens && (parseDefine l.tokens.tail).isNone then .error ⟨l.number, .badDefine⟩
    else
      match labelOf l.tokens with
      | none => checkLines ls seen
      | some t =>
        if isIsrLabel t && seen.any isIsrLabel then .error ⟨l.number, .multipleIsrs⟩
        else if seen.contains t then .error ⟨l.number, .duplicateLabel t⟩
        else checkLines ls (t :: seen)

/-- Where the ISR stands: its first and last line of the file, its first and last address. -/
structure IsrRange where
  firstLine : Nat
  lastLine : Nat
  first : Nat
  last : Nat
deriving DecidableEq, Repr

/-- Does the line begin with the ISR's label? -/
def startsIsr (l : SourceLine) : Bool :=
  match labelOf l.tokens with
  | some t => isIsrLabel t
  | none => false

/-- Does a RETI stand on the line, at or after line `first`? -/
def endsIsr (first : Nat) (l : AsmLine) : Bool := decide (first ≤ l.line) && decide (l.mnemonic = "RETI".toList)

/-- The ISR: from its label to its RETI; without a RETI it is no ISR the assembler accepts (30_encoding.md R115). The spec
does not say where an ISR with more than one RETI ends: here at the first one at or after the label. DESIGN CHOICE, unsafe,
log entry 31. -/
def isrRange (lines : List SourceLine) (code : List AsmLine) : Except AsmFailure (Option IsrRange) :=
  match lines.find? startsIsr with
  | none => .ok none
  | some l =>
    match (labelTable lines 0).find? (fun p => isIsrLabel p.1), code.find? (endsIsr l.number) with
    | some p, some reti => .ok (some ⟨l.number, reti.line, p.2, reti.address⟩)
    | _, _ => .error ⟨l.number, .isrWithoutReti⟩

/-- An address inside the ISR. -/
def insideIsr (isr : Option IsrRange) (address : Nat) : Bool :=
  match isr with
  | none => false
  | some r => decide (r.first ≤ address) && decide (address ≤ r.last)

/-- All general purpose registers. -/
def allRegs : List Reg := [.r0, .r1, .r2, .r3, .r4, .r5, .r6, .r7]

/-- How many lines the search for an unused register covers (30_encoding.md R115; the error text says 10). DESIGN CHOICE, log
entry 32. -/
def setupLineCount : Nat := 11

/-- The numbers of the first lines of the file, `.define` lines and the ISR left out (30_encoding.md R115). -/
def setupLines (r : IsrRange) (lines : List SourceLine) : List Nat :=
  ((lines.filter (fun l => !isDefine l.tokens && !(decide (r.firstLine ≤ l.number) && decide (l.number ≤ r.lastLine)))).take
    setupLineCount).map SourceLine.number

/-- The line names the register as an operand. -/
def usesReg (r : Reg) (l : AsmLine) : Bool :=
  l.operands.any (fun t => decide ((parseReg l.defines t).toOption = some r))

/-- A text with an ISR leaves a register unused in its first lines, else ERROR14 (30_encoding.md R115, R117). What counts as a
line and as a use is the model's reading: DESIGN CHOICE, log entry 32. -/
def checkSetup (isr : Option IsrRange) (lines : List SourceLine) (code : List AsmLine) : Except AsmFailure Unit :=
  match isr with
  | none => .ok ()
  | some r =>
    if allRegs.any (fun q => !((code.filter (fun l => (setupLines r lines).contains l.line)).any (usesReg q))) then .ok ()
    else .error ⟨r.firstLine, .noUnusedRegister⟩

/-- All checks on the whole text; the answer is where its ISR stands. -/
def checkSource (source : List String) : Except AsmFailure (Option IsrRange) :=
  match checkLines (sourceLines source) [] with
  | .error e => .error e
  | .ok _ =>
    match isrRange (sourceLines source) (programLines source) with
    | .error e => .error e
    | .ok isr =>
      match checkSetup isr (sourceLines source) (programLines source) with
      | .error e => .error e
      | .ok _ => .ok isr

/-! ### Instructions -/

/-- The offset a branch to a label encodes: label minus branch, in words (30_encoding.md R113; 43_control_transfer.md R190
g). From outside no branch goes into the ISR; the return of a subroutine the ISR calls is a RET, which names no label
(30_encoding.md R115). The operand has to be spelled as the label is, `.isr` and `.ISR` too. DESIGN CHOICE, log entry 36. -/
def parseLabel (labels : List (Token × Nat)) (isr : Option IsrRange) (address : Nat) (t : Token) :
    Except AsmError (BitVec 8) :=
  match findNamed t labels with
  | none => .error (.undefinedLabel t)
  | some target =>
    if insideIsr isr target && !insideIsr isr address then .error (.branchIntoIsr t)
    else if -128 ≤ (target : Int) - address ∧ (target : Int) - address ≤ 127 then
      .ok (BitVec.ofInt 8 ((target : Int) - address))
    else .error (.branchOutOfRange t)

/-- Operands by position: too few are ERROR15. -/
def operandCount (form : SyntaxForm) : Nat :=
  match form with
  | .threeRegs _ => 3
  | .twoRegsImm _ => 3
  | .twoRegsCount _ => 3
  | .regByte _ => 2
  | .twoRegs _ => 2
  | .regImm _ => 2
  | .label _ => 1
  | .stack _ => 1
  | .bare _ => 0

/-- The operand at a position; a line with the right number of operands has it. -/
def operandAt (l : AsmLine) (n : Nat) : Token := l.operands.getD n []

/-- The instruction of a line (30_encoding.md R112). -/
def buildInstr (labels : List (Token × Nat)) (isr : Option IsrRange) (form : SyntaxForm) (l : AsmLine) :
    Except AsmError Instr :=
  if l.operands.length < operandCount form then .error (.notEnoughOperands l.mnemonic)
  else if operandCount form < l.operands.length then .error (.tooManyOperands l.mnemonic)
  else
    match form with
    | .threeRegs make => do
      let d ← parseReg l.defines (operandAt l 0)
      let a ← parseReg l.defines (operandAt l 1)
      let b ← parseReg l.defines (operandAt l 2)
      return make d a b
    | .twoRegsImm make => do
      let d ← parseReg l.defines (operandAt l 0)
      let a ← parseReg l.defines (operandAt l 1)
      let i ← parseField 5 .immediateTooLarge (operandAt l 2)
      return make d a i
    | .twoRegsCount make => do
      let d ← parseReg l.defines (operandAt l 0)
      let a ← parseReg l.defines (operandAt l 1)
      let n ← parseCount (operandAt l 2)
      return make d a n
    | .regByte make => do
      let d ← parseReg l.defines (operandAt l 0)
      let i ← parseField 8 .byteTooLarge (operandAt l 1)
      return make d i
    | .twoRegs make => do
      let a ← parseReg l.defines (operandAt l 0)
      let b ← parseReg l.defines (operandAt l 1)
      return make a b
    | .regImm make => do
      let a ← parseReg l.defines (operandAt l 0)
      let i ← parseField 5 .immediateTooLarge (operandAt l 1)
      return make a i
    | .label make => do
      let i ← parseLabel labels isr l.address (operandAt l 0)
      return make i
    | .stack make => do
      let r ← parseStackReg l.defines (operandAt l 0)
      return make r
    | .bare i => .ok i

/-- The mnemonic of the message 30_encoding.md R117 shows, an ERROR1. -/
def shownUnknownMnemonic : Token := "ADDX_R6".toList

/-- The error of a mnemonic the assembler does not know: every known mnemonic that begins with `B` is a branch, so such a one
is a branch with an unknown condition; another one is ERROR1 or, where the free choice says so, ERROR5 (30_encoding.md R117).
DESIGN CHOICE, log entry 33. -/
def unknownMnemonicError (mnemonic : Token) : AsmError :=
  if mnemonic.head? = some 'B' then .unknownBranchCondition mnemonic
  else if mnemonic ≠ shownUnknownMnemonic ∧ Config.mnemonicIsError5 mnemonic = true then .unrecognisedMnemonic mnemonic
  else .unknownMnemonic mnemonic

/-- The instruction of a line, by its mnemonic. -/
def assembleLine (labels : List (Token × Nat)) (isr : Option IsrRange) (l : AsmLine) : Except AsmError Instr :=
  if l.mnemonic = "NOP".toList then .error .nopNotShown
  else
    match findNamed l.mnemonic (syntaxTable.map (fun p => (p.1.toList, p.2))) with
    | some form => buildInstr labels isr form l
    | none => .error (unknownMnemonicError l.mnemonic)

/-- The instructions of all lines, in order; the first line with an error stops assembly. -/
def assembleLines (labels : List (Token × Nat)) (isr : Option IsrRange) : List AsmLine → Except AsmFailure (List Instr)
  | [] => .ok []
  | l :: ls =>
    match assembleLine labels isr l with
    | .error e => .error ⟨l.line, e⟩
    | .ok i =>
      match assembleLines labels isr ls with
      | .error e => .error e
      | .ok is => .ok (i :: is)

/-- The instructions of a source text, in order of their addresses. -/
def assembleInstrs (source : List String) : Except AsmFailure (List Instr) :=
  match checkSource source with
  | .error e => .error e
  | .ok isr => assembleLines (labelTable (sourceLines source) 0) isr (programLines source)

/-- The memory image of a source text: one word per instruction line (30_encoding.md R119). -/
def assemble (source : List String) : Except AsmFailure (List Word) :=
  match assembleInstrs source with
  | .error e => .error e
  | .ok is => .ok (is.map encode)

/-- What the assembler displays of a source text it stops at (30_encoding.md R117). -/
def assemblyMessage (source : List String) : Option AsmMessage :=
  match assemble source with
  | .error f => some (f.message source)
  | .ok _ => none

end Sys2Proof.Machine
end

