-- ==== Sys2Proof/Safety.lean ====
section
/-! DEFINITION. The terms claims use: what one step runs, when a run has ended, the invariant of the state, what a frame
leaves alone, the flags as the rules characterise them, the tables of what each instruction writes (10_state.md R38) and of
its fields (spec/opcode_table.json), the accesses without behaviour, and what a line of source text denotes. -/

namespace Sys2Proof

open Sys2Proof.Machine

/-! ### What each instruction writes (10_state.md R38) and where it accesses memory (20_memory.md R55) -/

/-- The general registers an instruction writes: the column "registers written" of 10_state.md R38. -/
def Instr.destinations : Instr → List Reg
  | .add rd _ _ => [rd]
  | .addi rd _ _ => [rd]
  | .addib rd _ => [rd]
  | .adc rd _ _ => [rd]
  | .adci rd _ _ => [rd]
  | .neg rd _ => [rd]
  | .sub rd _ _ => [rd]
  | .subi rd _ _ => [rd]
  | .subib rd _ => [rd]
  | .suc rd _ _ => [rd]
  | .suci rd _ _ => [rd]
  | .cmp _ _ => []
  | .cmpi _ _ => []
  | .and rd _ _ => [rd]
  | .or rd _ _ => [rd]
  | .xor rd _ _ => [rd]
  | .not rd _ => [rd]
  | .nand rd _ _ => [rd]
  | .nor rd _ _ => [rd]
  | .lsl rd _ _ => [rd]
  | .lsr rd _ _ => [rd]
  | .asr rd _ _ => [rd]
  | .ldw rd _ _ => [rd]
  | .stw _ _ _ => []
  | .lui rd _ => [rd]
  | .lli rd _ => [rd]
  | .br _ => []
  | .bne _ => []
  | .be _ => []
  | .blt _ => []
  | .bge _ => []
  | .bwl _ => []
  | .ret => []
  | .jmp _ _ => []
  | .push _ => [.r7]
  | .pop (.gpr r) => [.r7, r]
  | .pop .lr => [.r7]
  | .reti => [.r7]
  | .enai => []
  | .disi => []
  | .stf => [.r7]
  | .ldf => [.r7]

/-- Does the instruction write the flags? The column "flags written" of 10_state.md R38. -/
def Instr.writesFlags : Instr → Bool
  | .add _ _ _ => true
  | .addi _ _ _ => true
  | .addib _ _ => true
  | .adc _ _ _ => true
  | .adci _ _ _ => true
  | .neg _ _ => true
  | .sub _ _ _ => true
  | .subi _ _ _ => true
  | .subib _ _ => true
  | .suc _ _ _ => true
  | .suci _ _ _ => true
  | .cmp _ _ => true
  | .cmpi _ _ => true
  | .and _ _ _ => true
  | .or _ _ _ => true
  | .xor _ _ _ => true
  | .not _ _ => true
  | .nand _ _ _ => true
  | .nor _ _ _ => true
  | .lsl _ _ _ => true
  | .lsr _ _ _ => true
  | .asr _ _ _ => true
  | .ldw _ _ _ => false
  | .stw _ _ _ => false
  | .lui _ _ => false
  | .lli _ _ => false
  | .br _ => false
  | .bne _ => false
  | .be _ => false
  | .blt _ => false
  | .bge _ => false
  | .bwl _ => false
  | .ret => false
  | .jmp _ _ => false
  | .push _ => false
  | .pop _ => false
  | .reti => false
  | .enai => false
  | .disi => false
  | .stf => false
  | .ldf => true

/-- Does the instruction write LR (10_state.md R23)? -/
def Instr.writesLr (i : Instr) : Bool :=
  match i with
  | .add _ _ _ => false
  | .addi _ _ _ => false
  | .addib _ _ => false
  | .adc _ _ _ => false
  | .adci _ _ _ => false
  | .neg _ _ => false
  | .sub _ _ _ => false
  | .subi _ _ _ => false
  | .subib _ _ => false
  | .suc _ _ _ => false
  | .suci _ _ _ => false
  | .cmp _ _ => false
  | .cmpi _ _ => false
  | .and _ _ _ => false
  | .or _ _ _ => false
  | .xor _ _ _ => false
  | .not _ _ => false
  | .nand _ _ _ => false
  | .nor _ _ _ => false
  | .lsl _ _ _ => false
  | .lsr _ _ _ => false
  | .asr _ _ _ => false
  | .ldw _ _ _ => false
  | .stw _ _ _ => false
  | .lui _ _ => false
  | .lli _ _ => false
  | .br _ => false
  | .bne _ => false
  | .be _ => false
  | .blt _ => false
  | .bge _ => false
  | .bwl _ => true
  | .ret => false
  | .jmp _ _ => false
  | .push _ => false
  | .pop .lr => true
  | .pop (.gpr _) => false
  | .reti => false
  | .enai => false
  | .disi => false
  | .stf => false
  | .ldf => false

/-- Does the instruction set PC other than by the increment (10_state.md R27)? -/
def Instr.transfersControl (i : Instr) : Bool :=
  match i with
  | .add _ _ _ => false
  | .addi _ _ _ => false
  | .addib _ _ => false
  | .adc _ _ _ => false
  | .adci _ _ _ => false
  | .neg _ _ => false
  | .sub _ _ _ => false
  | .subi _ _ _ => false
  | .subib _ _ => false
  | .suc _ _ _ => false
  | .suci _ _ _ => false
  | .cmp _ _ => false
  | .cmpi _ _ => false
  | .and _ _ _ => false
  | .or _ _ _ => false
  | .xor _ _ _ => false
  | .not _ _ => false
  | .nand _ _ _ => false
  | .nor _ _ _ => false
  | .lsl _ _ _ => false
  | .lsr _ _ _ => false
  | .asr _ _ _ => false
  | .ldw _ _ _ => false
  | .stw _ _ _ => false
  | .lui _ _ => false
  | .lli _ _ => false
  | .br _ => true
  | .bne _ => true
  | .be _ => true
  | .blt _ => true
  | .bge _ => true
  | .bwl _ => true
  | .ret => true
  | .jmp _ _ => true
  | .push _ => false
  | .pop _ => false
  | .reti => true
  | .enai => false
  | .disi => false
  | .stf => false
  | .ldf => false

/-- The address an instruction stores to (20_memory.md R55). -/
def Instr.storeAddress (i : Instr) (s : State) : Option Word :=
  match i with
  | .add _ _ _ => none
  | .addi _ _ _ => none
  | .addib _ _ => none
  | .adc _ _ _ => none
  | .adci _ _ _ => none
  | .neg _ _ => none
  | .sub _ _ _ => none
  | .subi _ _ _ => none
  | .subib _ _ => none
  | .suc _ _ _ => none
  | .suci _ _ _ => none
  | .cmp _ _ => none
  | .cmpi _ _ => none
  | .and _ _ _ => none
  | .or _ _ _ => none
  | .xor _ _ _ => none
  | .not _ _ => none
  | .nand _ _ _ => none
  | .nor _ _ _ => none
  | .lsl _ _ _ => none
  | .lsr _ _ _ => none
  | .asr _ _ _ => none
  | .ldw _ _ _ => none
  | .stw _ ra imm => some (effectiveAddress (s.reg ra) imm)
  | .lui _ _ => none
  | .lli _ _ => none
  | .br _ => none
  | .bne _ => none
  | .be _ => none
  | .blt _ => none
  | .bge _ => none
  | .bwl _ => none
  | .ret => none
  | .jmp _ _ => none
  | .push _ => some (previousAddress s.sp)
  | .pop _ => none
  | .reti => none
  | .enai => none
  | .disi => none
  | .stf => some (previousAddress s.sp)
  | .ldf => none

/-- The address an instruction loads from, other than its fetch (20_memory.md R55). -/
def Instr.loadAddress (i : Instr) (s : State) : Option Word :=
  match i with
  | .add _ _ _ => none
  | .addi _ _ _ => none
  | .addib _ _ => none
  | .adc _ _ _ => none
  | .adci _ _ _ => none
  | .neg _ _ => none
  | .sub _ _ _ => none
  | .subi _ _ _ => none
  | .subib _ _ => none
  | .suc _ _ _ => none
  | .suci _ _ _ => none
  | .cmp _ _ => none
  | .cmpi _ _ => none
  | .and _ _ _ => none
  | .or _ _ _ => none
  | .xor _ _ _ => none
  | .not _ _ => none
  | .nand _ _ _ => none
  | .nor _ _ _ => none
  | .lsl _ _ _ => none
  | .lsr _ _ _ => none
  | .asr _ _ _ => none
  | .ldw _ ra imm => some (effectiveAddress (s.reg ra) imm)
  | .stw _ _ _ => none
  | .lui _ _ => none
  | .lli _ _ => none
  | .br _ => none
  | .bne _ => none
  | .be _ => none
  | .blt _ => none
  | .bge _ => none
  | .bwl _ => none
  | .ret => none
  | .jmp _ _ => none
  | .push _ => none
  | .pop _ => some s.sp
  | .reti => some s.sp
  | .enai => none
  | .disi => none
  | .stf => none
  | .ldf => some s.sp

/-! ### The fields of an instruction's row of spec/opcode_table.json -/

/-- The operands of the instruction are the values of its fields in the word (30_encoding.md R81 to R89, R90, R96). -/
def Instr.fieldsIn (i : Instr) (w : Word) : Prop :=
  match i with
  | .add rd ra rb => bitsOfReg rd = w.extractLsb' 8 3 ∧ bitsOfReg ra = w.extractLsb' 5 3 ∧ bitsOfReg rb = w.extractLsb' 2 3
  | .addi rd ra imm => bitsOfReg rd = w.extractLsb' 8 3 ∧ bitsOfReg ra = w.extractLsb' 5 3 ∧ imm = w.extractLsb' 0 5
  | .addib rd imm => bitsOfReg rd = w.extractLsb' 8 3 ∧ imm = w.extractLsb' 0 8
  | .adc rd ra rb => bitsOfReg rd = w.extractLsb' 8 3 ∧ bitsOfReg ra = w.extractLsb' 5 3 ∧ bitsOfReg rb = w.extractLsb' 2 3
  | .adci rd ra imm => bitsOfReg rd = w.extractLsb' 8 3 ∧ bitsOfReg ra = w.extractLsb' 5 3 ∧ imm = w.extractLsb' 0 5
  | .neg rd ra => bitsOfReg rd = w.extractLsb' 8 3 ∧ bitsOfReg ra = w.extractLsb' 5 3
  | .sub rd ra rb => bitsOfReg rd = w.extractLsb' 8 3 ∧ bitsOfReg ra = w.extractLsb' 5 3 ∧ bitsOfReg rb = w.extractLsb' 2 3
  | .subi rd ra imm => bitsOfReg rd = w.extractLsb' 8 3 ∧ bitsOfReg ra = w.extractLsb' 5 3 ∧ imm = w.extractLsb' 0 5
  | .subib rd imm => bitsOfReg rd = w.extractLsb' 8 3 ∧ imm = w.extractLsb' 0 8
  | .suc rd ra rb => bitsOfReg rd = w.extractLsb' 8 3 ∧ bitsOfReg ra = w.extractLsb' 5 3 ∧ bitsOfReg rb = w.extractLsb' 2 3
  | .suci rd ra imm => bitsOfReg rd = w.extractLsb' 8 3 ∧ bitsOfReg ra = w.extractLsb' 5 3 ∧ imm = w.extractLsb' 0 5
  | .cmp ra rb => bitsOfReg ra = w.extractLsb' 5 3 ∧ bitsOfReg rb = w.extractLsb' 2 3
  | .cmpi ra imm => bitsOfReg ra = w.extractLsb' 5 3 ∧ imm = w.extractLsb' 0 5
  | .and rd ra rb => bitsOfReg rd = w.extractLsb' 8 3 ∧ bitsOfReg ra = w.extractLsb' 5 3 ∧ bitsOfReg rb = w.extractLsb' 2 3
  | .or rd ra rb => bitsOfReg rd = w.extractLsb' 8 3 ∧ bitsOfReg ra = w.extractLsb' 5 3 ∧ bitsOfReg rb = w.extractLsb' 2 3
  | .xor rd ra rb => bitsOfReg rd = w.extractLsb' 8 3 ∧ bitsOfReg ra = w.extractLsb' 5 3 ∧ bitsOfReg rb = w.extractLsb' 2 3
  | .not rd ra => bitsOfReg rd = w.extractLsb' 8 3 ∧ bitsOfReg ra = w.extractLsb' 5 3
  | .nand rd ra rb => bitsOfReg rd = w.extractLsb' 8 3 ∧ bitsOfReg ra = w.extractLsb' 5 3 ∧ bitsOfReg rb = w.extractLsb' 2 3
  | .nor rd ra rb => bitsOfReg rd = w.extractLsb' 8 3 ∧ bitsOfReg ra = w.extractLsb' 5 3 ∧ bitsOfReg rb = w.extractLsb' 2 3
  | .lsl rd ra count => bitsOfReg rd = w.extractLsb' 8 3 ∧ bitsOfReg ra = w.extractLsb' 5 3 ∧ count = (w.extractLsb' 0 4).toNat
  | .lsr rd ra count => bitsOfReg rd = w.extractLsb' 8 3 ∧ bitsOfReg ra = w.extractLsb' 5 3 ∧ count = (w.extractLsb' 0 4).toNat
  | .asr rd ra count => bitsOfReg rd = w.extractLsb' 8 3 ∧ bitsOfReg ra = w.extractLsb' 5 3 ∧ count = (w.extractLsb' 0 4).toNat
  | .ldw rd ra imm => bitsOfReg rd = w.extractLsb' 8 3 ∧ bitsOfReg ra = w.extractLsb' 5 3 ∧ imm = w.extractLsb' 0 5
  | .stw rd ra imm => bitsOfReg rd = w.extractLsb' 8 3 ∧ bitsOfReg ra = w.extractLsb' 5 3 ∧ imm = w.extractLsb' 0 5
  | .lui rd imm => bitsOfReg rd = w.extractLsb' 8 3 ∧ imm = w.extractLsb' 0 8
  | .lli rd imm => bitsOfReg rd = w.extractLsb' 8 3 ∧ imm = w.extractLsb' 0 8
  | .br imm => imm = w.extractLsb' 0 8
  | .bne imm => imm = w.extractLsb' 0 8
  | .be imm => imm = w.extractLsb' 0 8
  | .blt imm => imm = w.extractLsb' 0 8
  | .bge imm => imm = w.extractLsb' 0 8
  | .bwl imm => imm = w.extractLsb' 0 8
  | .ret => True
  | .jmp ra imm => bitsOfReg ra = w.extractLsb' 5 3 ∧ imm = w.extractLsb' 0 5
  | .push (.gpr r) => w.extractLsb' 10 1 = 0#1 ∧ bitsOfReg r = w.extractLsb' 5 3
  | .push .lr => w.extractLsb' 10 1 = 1#1
  | .pop (.gpr r) => w.extractLsb' 10 1 = 0#1 ∧ bitsOfReg r = w.extractLsb' 5 3
  | .pop .lr => w.extractLsb' 10 1 = 1#1
  | .reti => True
  | .enai => True
  | .disi => True
  | .stf => True
  | .ldf => True

/-- The bits of an instruction's row that do not take part in decoding (30_encoding.md R91); with L = 1 also the Ra field of
PUSH and POP (30_encoding.md R88). -/
def Instr.ignoredBits : Instr → Word
  | .add _ _ _ => 0x0003#16
  | .addi _ _ _ => 0x0000#16
  | .addib _ _ => 0x0000#16
  | .adc _ _ _ => 0x0003#16
  | .adci _ _ _ => 0x0000#16
  | .neg _ _ => 0x001F#16
  | .sub _ _ _ => 0x0003#16
  | .subi _ _ _ => 0x0000#16
  | .subib _ _ => 0x0000#16
  | .suc _ _ _ => 0x0003#16
  | .suci _ _ _ => 0x0000#16
  | .cmp _ _ => 0x0703#16
  | .cmpi _ _ => 0x0700#16
  | .and _ _ _ => 0x0003#16
  | .or _ _ _ => 0x0003#16
  | .xor _ _ _ => 0x0003#16
  | .not _ _ => 0x001F#16
  | .nand _ _ _ => 0x0003#16
  | .nor _ _ _ => 0x0003#16
  | .lsl _ _ _ => 0x0000#16
  | .lsr _ _ _ => 0x0000#16
  | .asr _ _ _ => 0x0000#16
  | .ldw _ _ _ => 0x0000#16
  | .stw _ _ _ => 0x0000#16
  | .lui _ _ => 0x0000#16
  | .lli _ _ => 0x0000#16
  | .br _ => 0x0000#16
  | .bne _ => 0x0000#16
  | .be _ => 0x0000#16
  | .blt _ => 0x0000#16
  | .bge _ => 0x0000#16
  | .bwl _ => 0x0000#16
  | .ret => 0x00FF#16
  | .jmp _ _ => 0x0000#16
  | .push (.gpr _) => 0x0300#16
  | .push .lr => 0x03E0#16
  | .pop (.gpr _) => 0x0300#16
  | .pop .lr => 0x03E0#16
  | .reti => 0x001F#16
  | .enai => 0x001F#16
  | .disi => 0x001F#16
  | .stf => 0x001F#16
  | .ldf => 0x001F#16

end Sys2Proof

namespace Sys2Proof.Machine

open Sys2Proof

/-! ### What a step runs -/

/-- The step takes the interrupt (60_exceptions.md R244). -/
def State.Enters (s : State) : Prop := s.tick.takesInterrupt = true

/-- The step executes this instruction: no interrupt is taken and the word at PC decodes to it (60_exceptions.md R245). -/
def State.Executes (s : State) (i : Instr) : Prop :=
  s.tick.takesInterrupt = false ∧ region s.pc = .mainMemory ∧ ∃ w, s.mem.read s.pc = some w ∧ decode w = .ok i

/-- The state an instruction executes in: the due arrivals delivered, the boundary counted, its word in IR. -/
def State.executing (s : State) (w : Word) : State := { s.tick with ir := w }

/-- A state the instruction at PC leaves only to come back: the branch to itself (70_reset_and_hazards.md R290). -/
def State.AtSelfBranch (s : State) : Prop :=
  region s.pc = .mainMemory ∧ s.mem.read s.pc = some 0xF000#16

/-- The take condition is false and will stay false while no instruction writes IE: IE is 0, or nIRQ is high and no
arrival is scheduled (70_reset_and_hazards.md R290). -/
def State.NoInterruptAhead (s : State) : Prop :=
  s.ie = false ∨ (s.dev.irqPending = false ∧ s.dev.arrivals = [])

/-- A final state (70_reset_and_hazards.md R290). Log entry 27. -/
def State.Final (s : State) : Prop := s.AtSelfBranch ∧ s.NoInterruptAhead

/-- The invariant of the state: memory is in its canonical form, and every arrival still to come is at a boundary that
has not passed. -/
def State.Inv (s : State) : Prop :=
  s.mem.wf = true ∧ ∀ x ∈ s.dev.arrivals, s.boundary ≤ x.boundary

/-! ### Frames -/

/-- The word listed at an address of main memory: the model's read of one memory unit. -/
def State.word (s : State) (a : Word) : Option Word := s.mem.read a

/-- `w` is what main memory holds at `a`; where nothing was written, it is any value (10_state.md R37). -/
def State.ReadsAs (s : State) (a w : Word) : Prop := ∀ v, s.word a = some v → w = v

/-- Every word of memory reads as before. -/
def SameMemory (s t : State) : Prop := ∀ a : Word, t.word a = s.word a

/-- Every word of memory but the one at `stored` reads as before. -/
def SameMemoryExcept (stored : Word) (s t : State) : Prop := ∀ a : Word, a ≠ stored → t.word a = s.word a

/-- Every general register but `rd` is as before. -/
def OtherRegisters (rd : Reg) (s t : State) : Prop := ∀ r : Reg, r ≠ rd → t.reg r = s.reg r

/-- `rd` holds `v` and every other general register is as before. -/
def OnlyRegister (rd : Reg) (v : Word) (s t : State) : Prop := t.reg rd = v ∧ OtherRegisters rd s t

/-- Every general register is as before. -/
def SameRegisters (s t : State) : Prop := ∀ r : Reg, t.reg r = s.reg r

/-- What no instruction writes is as before: IR (fetch writes it), the boundary counter (the tick does), `ISR_VECTOR` and
`SUB_CARRY` (nothing does). -/
def SameConstants (s t : State) : Prop :=
  t.ir = s.ir ∧ t.boundary = s.boundary ∧ t.isrVector = s.isrVector ∧ t.subCarry = s.subCarry

/-- LR, IE, the devices and what no instruction writes are as before. -/
def SameControl (s t : State) : Prop :=
  t.lr = s.lr ∧ t.ie = s.ie ∧ t.dev = s.dev ∧ SameConstants s t

/-- The frame of a data manipulation instruction, besides its register and the flags: nothing else changes but PC, which
goes to the next instruction (the model's draw counter may move). That AluOut stays too is DEDUCED
(log entry 15). -/
def DataFrame (s t : State) : Prop :=
  SameControl s t ∧ SameMemory s t ∧ t.aluOut = s.aluOut ∧ t.pc = s.pc + 1#16

/-- The processor's own state is the same in two states: all but the devices and the boundary counter. -/
def SameProcessor (s t : State) : Prop :=
  SameRegisters s t ∧ t.lr = s.lr ∧ t.pc = s.pc ∧ t.ir = s.ir ∧ t.aluOut = s.aluOut ∧ t.flags = s.flags ∧
    t.ie = s.ie ∧ SameMemory s t ∧ t.draws = s.draws ∧ t.isrVector = s.isrVector ∧ t.subCarry = s.subCarry

/-! ### Flags, as the rules characterise them -/

/-- N is the sign and Z the zeroness of a result (40_arithmetic.md R131). -/
def FlagsNZ (result : Word) (f : Flags) : Prop :=
  (f.n = true ↔ result.toInt < 0) ∧ (f.z = true ↔ result.toNat = 0)

/-- V is signed overflow of `a + b` (40_arithmetic.md R132). -/
def FlagVOverflow (a b : Int) (f : Flags) : Prop :=
  f.v = true ↔ (a + b < -32768 ∨ 32767 < a + b)

/-- The two operand cases in which V is any value (40_arithmetic.md R132 cases i and ii). -/
def FlagVOpen (a b : Int) : Prop := (a = -32768 ∧ b = -32768) ∨ (a = 0 ∧ b = 32768)

/-- C after a subtract under the named settings of `SUB_CARRY`; `minuend` and `subtrahend` are unsigned, the latter with
the borrow taken in (40_arithmetic.md R134). Under the default nothing is said. -/
def FlagCSubtract (setting : Config.SubCarry) (minuend subtrahend : Nat) (f : Flags) : Prop :=
  (setting = .zeroLiteral → f.c = false) ∧
  (setting = .notBorrow → (f.c = true ↔ subtrahend ≤ minuend)) ∧
  (setting = .borrow → (f.c = true ↔ minuend < subtrahend))

/-- The carry flag as a number. -/
def State.carry (s : State) : Nat := s.flags.c.toNat

/-! ### Accesses the platform gives no behaviour (20_memory.md R57; 60_exceptions.md R262 to R265; log entry 14) -/

/-- An address nothing answers at. -/
def Unpopulated (a : Word) : Prop := 0x0802 ≤ a.toNat ∧ a.toNat < 0xA000 ∨ 0xA002 ≤ a.toNat

/-- A load from `a` is not described, and is refused with `why`. -/
def LoadUndescribed (a : Word) (why : Refusal) : Prop :=
  (Unpopulated a ∧ why = .unmappedRead a) ∨ (a = 0x0801#16 ∧ why = .readOfLeds) ∨
    (a = 0xA001#16 ∧ why = .readOfSerialControl)

/-- A store of `v` to `a` is not described, and is refused with `why`. -/
def StoreUndescribed (a v : Word) (why : Refusal) : Prop :=
  (Unpopulated a ∧ why = .unmappedWrite a) ∨ (a = 0x0800#16 ∧ why = .writeToSwitches) ∨
    (a = 0xA000#16 ∧ why = .writeToSerialData) ∨ (a = 0xA001#16 ∧ v ≠ 0x0001#16 ∧ why = .undescribedSerialControl v)

/-! ### What a line of source text denotes (30_encoding.md R112 to R114, R119) -/

/-- The tokens of the instruction on a source line, its label left out; none on a `.define` line, a label-only line, a
comment line and an empty line (30_encoding.md R119). -/
def instructionTokens (line : String) : Option (List Token) :=
  match lineTokens line with
  | [] => none
  | t :: rest =>
    if t = defineDirective then none
    else if t.head? = some '.' then (if rest = [] then none else some rest)
    else some (t :: rest)

/-- The line begins with this label (30_encoding.md R113). -/
def beginsWithLabel (label : Token) (line : String) : Bool :=
  decide ((lineTokens line).head? = some label) && decide (label.head? = some '.') && decide (label ≠ defineDirective)

/-- The address of the instruction a label names: how many instruction lines stand above the line that begins with it
(30_encoding.md R113, R119; log entry 38). -/
def labelAddress (source : List String) (label : Token) : Option Nat :=
  match source.findIdx? (beginsWithLabel label) with
  | some j => some ((source.take j).filterMap instructionTokens).length
  | none => none

/-- An operand of a syntax line (30_encoding.md R112). -/
inductive AsmOperand where
  /-- `Rd`, `Ra` or `Rb`. -/
  | reg (r : Reg)
  /-- The register of PUSH or POP, or `LR`. -/
  | stack (r : StackReg)
  /-- `#imm5`. -/
  | short (imm : BitVec 5)
  /-- `#imm8`. -/
  | byte (imm : BitVec 8)
  /-- `#imm4`. -/
  | count (n : Nat)
  /-- `LABEL`, by the offset it encodes. -/
  | offset (imm : BitVec 8)
deriving DecidableEq, Repr

/-- The mnemonic and the operands of an instruction, in the order of its syntax line (30_encoding.md R112). -/
def syntaxLine : Instr → String × List AsmOperand
  | .add rd ra rb => ("ADD", [.reg rd, .reg ra, .reg rb])
  | .addi rd ra imm => ("ADDI", [.reg rd, .reg ra, .short imm])
  | .addib rd imm => ("ADDIB", [.reg rd, .byte imm])
  | .adc rd ra rb => ("ADC", [.reg rd, .reg ra, .reg rb])
  | .adci rd ra imm => ("ADCI", [.reg rd, .reg ra, .short imm])
  | .neg rd ra => ("NEG", [.reg rd, .reg ra])
  | .sub rd ra rb => ("SUB", [.reg rd, .reg ra, .reg rb])
  | .subi rd ra imm => ("SUBI", [.reg rd, .reg ra, .short imm])
  | .subib rd imm => ("SUBIB", [.reg rd, .byte imm])
  | .suc rd ra rb => ("SUC", [.reg rd, .reg ra, .reg rb])
  | .suci rd ra imm => ("SUCI", [.reg rd, .reg ra, .short imm])
  | .cmp ra rb => ("CMP", [.reg ra, .reg rb])
  | .cmpi ra imm => ("CMPI", [.reg ra, .short imm])
  | .and rd ra rb => ("AND", [.reg rd, .reg ra, .reg rb])
  | .or rd ra rb => ("OR", [.reg rd, .reg ra, .reg rb])
  | .xor rd ra rb => ("XOR", [.reg rd, .reg ra, .reg rb])
  | .not rd ra => ("NOT", [.reg rd, .reg ra])
  | .nand rd ra rb => ("NAND", [.reg rd, .reg ra, .reg rb])
  | .nor rd ra rb => ("NOR", [.reg rd, .reg ra, .reg rb])
  | .lsl rd ra count => ("LSL", [.reg rd, .reg ra, .count count])
  | .lsr rd ra count => ("LSR", [.reg rd, .reg ra, .count count])
  | .asr rd ra count => ("ASR", [.reg rd, .reg ra, .count count])
  | .ldw rd ra imm => ("LDW", [.reg rd, .reg ra, .short imm])
  | .stw rd ra imm => ("STW", [.reg rd, .reg ra, .short imm])
  | .lui rd imm => ("LUI", [.reg rd, .byte imm])
  | .lli rd imm => ("LLI", [.reg rd, .byte imm])
  | .br imm => ("BR", [.offset imm])
  | .bne imm => ("BNE", [.offset imm])
  | .be imm => ("BE", [.offset imm])
  | .blt imm => ("BLT", [.offset imm])
  | .bge imm => ("BGE", [.offset imm])
  | .bwl imm => ("BWL", [.offset imm])
  | .ret => ("RET", [])
  | .jmp ra imm => ("JMP", [.reg ra, .short imm])
  | .push r => ("PUSH", [.stack r])
  | .pop r => ("POP", [.stack r])
  | .reti => ("RETI", [])
  | .enai => ("ENAI", [])
  | .disi => ("DISI", [])
  | .stf => ("STF", [])
  | .ldf => ("LDF", [])

/-- The token stands for the operand on that line: a register name or a `.define` name in force, a number the field holds, or
a label whose distance fits and that does not lead into the ISR from outside. -/
def AsmOperand.DenotedBy (source : List String) (isr : Option IsrRange) (l : AsmLine) (t : Token) : AsmOperand → Prop
  | .reg r => parseReg l.defines t = .ok r
  | .stack r => parseStackReg l.defines t = .ok r
  | .short imm => ∃ n : Int, parseNumber t = some n ∧ -16 ≤ n ∧ n < 32 ∧ imm = BitVec.ofInt 5 n
  | .byte imm => ∃ n : Int, parseNumber t = some n ∧ -128 ≤ n ∧ n < 256 ∧ imm = BitVec.ofInt 8 n
  | .count n => parseNumber t = some (n : Int) ∧ n < 16
  | .offset imm => ∃ target : Nat, labelAddress source t = some target ∧ -128 ≤ (target : Int) - l.address ∧
      (target : Int) - l.address ≤ 127 ∧ imm = BitVec.ofInt 8 ((target : Int) - l.address) ∧
      (insideIsr isr target = true → insideIsr isr l.address = true)

/-- The line is the instruction's syntax line, operand by operand. -/
def AsmLine.Denotes (source : List String) (isr : Option IsrRange) (l : AsmLine) (i : Instr) : Prop :=
  l.mnemonic = (syntaxLine i).1.toList ∧
    List.Forall₂ (fun t o => AsmOperand.DenotedBy source isr l t o) l.operands (syntaxLine i).2

end Sys2Proof.Machine
end

