-- ==== Sys2Proof/Certificates/Slice0/Obligations.lean ====
section
/-! DEFINITION. The statements about the model, from the numbered rules of spec/. OBLIGATIONS.json lists them with the
rules each formalises. -/

open Sys2Proof Sys2Proof.Machine

/-! ### Encoding (30_encoding.md) -/

/-- Decoding the word of a well-formed instruction gives the instruction back, every operand at every value its field
admits (30_encoding.md R96, R99). -/
def Obligations.DecodeOfEncodeIsIdentity : Prop :=
  ∀ i : Instr, i.WellFormed = true → decode (encode i) = .ok i

/-- Every word the decoder accepts has the fixed bits of its instruction's row of the opcode table, gives the instruction whose
operands are the values of the row's fields in the word, and that instruction has an encoding (30_encoding.md R81 to R90, R96);
a word that differs from it only in don't-care bits decodes to the same instruction (30_encoding.md R91; the spec's decision
D6, log entry 21). -/
def Obligations.AcceptedWordsLieInTheirRow : Prop :=
  ∀ (w : Word) (i : Instr), decode w = .ok i →
    i.WellFormed = true ∧ w &&& i.rowMask = i.rowMatch ∧ i.fieldsIn w ∧ decode (encode i) = .ok i ∧
    ∀ w' : Word, (w ^^^ w') &&& ~~~i.ignoredBits = 0x0000#16 → decode w' = .ok i

/-- The words that are no instruction are exactly those of 30_encoding.md R100 to R103, each rejected under its own name.
That they are refused is the spec's decision D11 (log entry 14). -/
def Obligations.UndefinedWordsAreExactlyThese : Prop :=
  ∀ w : Word,
    (decode w = .error .unassignedOpcode ↔
      (w.extractLsb' 11 5 = 0b11000#5 ∨ w.extractLsb' 11 5 = 0b11011#5)) ∧
    (decode w = .error .undefinedInterruptWord ↔
      (w.extractLsb' 11 5 = 0b11001#5 ∧ (w.extractLsb' 5 3 ≠ 0b111#3 ∨ w.extractLsb' 8 3 = 0b101#3 ∨
        w.extractLsb' 8 3 = 0b110#3 ∨ w.extractLsb' 8 3 = 0b111#3))) ∧
    (decode w = .error .undefinedStackWord ↔
      ((w.extractLsb' 11 5 = 0b00001#5 ∨ w.extractLsb' 11 5 = 0b01001#5) ∧ w.extractLsb' 0 5 ≠ 0b00001#5)) ∧
    (decode w = .error .undefinedShiftWord ↔
      ((w.extractLsb' 11 5 = 0b11111#5 ∨ w.extractLsb' 11 5 = 0b11101#5 ∨ w.extractLsb' 11 5 = 0b11100#5) ∧
        w.getLsbD 4 = true))

/-- Words written out from the encoding rows decode to the instructions they stand for (30_encoding.md R96). -/
def Obligations.SampleWordsDecode : Prop :=
  decode 0b0001010101101000#16 = .ok (.add .r5 .r3 .r2) ∧
  decode 0b0111100001100111#16 = .ok (.cmpi .r3 7#5) ∧
  decode 0b1110110101100111#16 = .ok (.lsr .r5 .r3 7) ∧
  decode 0b0100010101100111#16 = .ok (.stw .r5 .r3 7#5) ∧
  decode 0b1111000101100111#16 = .ok (.jmp .r3 7#5) ∧
  decode 0b0100110000000001#16 = .ok (.push .lr) ∧
  decode 0b1100110011100000#16 = .ok .ldf

/-! ### Operand forms -/

/-- The address of LDW and STW and the target of JMP is the base plus the sign-extended 5-bit offset; the target of a
branch is PC plus the sign-extended 8-bit offset (43_control_transfer.md R190 d); both modulo 2^16. The extension of the
first is the spec's decision D5 (log entry 12), the wrap of both its decision D3 (log entry 20). -/
def Obligations.AddressesAddTheSignedOffset : Prop :=
  ∀ (base : Word) (short : BitVec 5) (long : BitVec 8),
    (effectiveAddress base short).toNat = ((base.toNat : Int) + short.toInt) % 65536 ∧
    (branchTarget base long).toNat = ((base.toNat : Int) + long.toInt) % 65536

/-! ### One step (60_exceptions.md R244, R245; 20_memory.md R61) -/

/-- When no interrupt is taken and the word at PC decodes to an instruction, the step is that instruction's meaning on the
state with the due serial arrivals delivered, the boundary counted and the word in IR (60_exceptions.md R245; the test at
every boundary is the spec's decision D17, log entry 19). -/
def Obligations.StepRunsTheDecodedInstruction : Prop :=
  ∀ (s : State) (w : Word) (i : Instr), s.tick.takesInterrupt = false → s.pc.toNat < 0x0800 →
    s.mem.read s.pc = some w → decode w = .ok i →
    step s = exec i { s with dev := s.dev.tick s.boundary, boundary := s.boundary + 1, ir := w }

/-- Where a step stops before any instruction: an undefined word, a fetch of a word never written, of a device's address,
of an unpopulated address. The refusals are the spec's decisions D4, D10 and D11 (log entries 8 and 14). -/
def Obligations.StepRefusesWhatIsNoInstruction : Prop :=
  ∀ s : State, s.tick.takesInterrupt = false →
    (∀ w why, s.pc.toNat < 0x0800 → s.mem.read s.pc = some w → decode w = .error why →
      step s = .refused (.undefinedWord w why)) ∧
    (s.pc.toNat < 0x0800 → s.mem.read s.pc = none → step s = .refused (.unwrittenFetch s.pc)) ∧
    ((s.pc = 0x0800#16 ∨ s.pc = 0x0801#16 ∨ s.pc = 0xA000#16 ∨ s.pc = 0xA001#16) →
      step s = .refused (.deviceFetch s.pc)) ∧
    ((0x0802 ≤ s.pc.toNat ∧ s.pc.toNat < 0xA000 ∨ 0xA002 ≤ s.pc.toNat) →
      step s = .refused (.unmappedFetch s.pc))

/-- Interrupt entry: with IE = 1 and nIRQ low at a boundary, the step pushes the address of the next instruction, clears
IE and sets PC to `ISR_VECTOR`; the other registers, LR, the flags, the rest of memory and the devices stay. What is
pushed and when is the spec's decision D17 (log entry 19). That AluOut and IR stay too is DEDUCED (log entries 15 and 16); the
devices are those after the due arrivals, delivered as log entry 10 says. -/
def Obligations.InterruptEntryPushesPcAndDisables : Prop :=
  ∀ s : State, s.ie = true → (s.dev.tick s.boundary).serialIntEnable = true →
    (s.dev.tick s.boundary).serialUnread = true → (s.reg .r7 - 1#16).toNat < 0x0800 →
    ∃ t, step s = .next t ∧ OnlyRegister .r7 (s.reg .r7 - 1#16) s t ∧
      t.word (s.reg .r7 - 1#16) = some s.pc ∧ SameMemoryExcept (s.reg .r7 - 1#16) s t ∧
      t.ie = false ∧ t.pc = s.isrVector ∧ t.lr = s.lr ∧ t.flags = s.flags ∧ t.ir = s.ir ∧ t.aluOut = s.aluOut ∧
      t.dev = s.dev.tick s.boundary ∧ t.boundary = s.boundary + 1 ∧ t.draws = s.draws ∧
      t.isrVector = s.isrVector ∧ t.subCarry = s.subCarry

/-- The serial device at a boundary (60_exceptions.md R264 to R267). With no arrival due the data register stays; with one or
several due, the last in script order is what the register holds and it is unread, an earlier or an unread one is lost (the
spec's decision D21, log entry 24); the arrivals that are not due stay, and so do the switches, the LED latch and the enable.
With IE = 1, the device's interrupt enabled and something due, the step that follows is the interrupt entry (log entries 10 and
19). A value received while the device's interrupt is disabled requests nothing until a store enables it, and then it does (log
entry 11). -/
def Obligations.ArrivalsAreReceivedAtTheirBoundary : Prop :=
  ∀ s : State,
    (s.dev.arrivals.filter (fun x => decide (x.boundary ≤ s.boundary)) = [] →
      s.tick.dev.serialData = s.dev.serialData ∧ s.tick.dev.serialUnread = s.dev.serialUnread) ∧
    (∀ x, (s.dev.arrivals.filter (fun x => decide (x.boundary ≤ s.boundary))).getLast? = some x →
      s.tick.dev.serialData = x.datum ∧ s.tick.dev.serialUnread = true ∧
      (s.ie = true → s.dev.serialIntEnable = true → (s.reg .r7 - 1#16).toNat < 0x0800 →
        ∃ t, step s = .next t ∧ t.pc = s.isrVector ∧ t.ie = false ∧ t.word (s.reg .r7 - 1#16) = some s.pc ∧
          t.dev.serialData = x.datum ∧ t.dev.serialUnread = true)) ∧
    s.tick.dev.arrivals = s.dev.arrivals.filter (fun x => decide (s.boundary < x.boundary)) ∧
    s.tick.dev.switches = s.dev.switches ∧ s.tick.dev.leds = s.dev.leds ∧
    s.tick.dev.serialIntEnable = s.dev.serialIntEnable ∧
    (s.dev.serialIntEnable = false → s.tick.dev.irqPending = false) ∧
    (∀ (rd ra : Reg) (imm : BitVec 5), effectiveAddress (s.reg ra) imm = 0xA001#16 → s.reg rd = 0x0001#16 →
      s.dev.serialUnread = true → ∃ t, exec (.stw rd ra imm) s = .next t ∧ t.dev.irqPending = true)

/-! ### Arithmetic (40_arithmetic.md) -/

/-- ADD: the 16-bit sum, the four flags, the next instruction; nothing else changes (40_arithmetic.md R131, R135). In the
two operand cases of R132 nothing is said of V. That AluOut stays is DEDUCED (log entry 15). -/
def Obligations.AddWritesSumAndFlags : Prop :=
  ∀ (rd ra rb : Reg) (s : State), ∃ t, exec (.add rd ra rb) s = .next t ∧
    OnlyRegister rd (s.reg ra + s.reg rb) s t ∧ FlagsNZ (s.reg ra + s.reg rb) t.flags ∧
    (¬FlagVOpen (s.reg ra).toInt (s.reg rb).toInt → FlagVOverflow (s.reg ra).toInt (s.reg rb).toInt t.flags) ∧
    (t.flags.c = true ↔ 65535 < (s.reg ra).toNat + (s.reg rb).toNat) ∧ DataFrame s t

/-- ADC: the same with the old carry added (40_arithmetic.md R138). That AluOut stays is DEDUCED (log entry 15). -/
def Obligations.AdcAddsTheOldCarry : Prop :=
  ∀ (rd ra rb : Reg) (s : State), ∃ t, exec (.adc rd ra rb) s = .next t ∧
    OnlyRegister rd (s.reg ra + s.reg rb + BitVec.ofNat 16 s.carry) s t ∧
    FlagsNZ (s.reg ra + s.reg rb + BitVec.ofNat 16 s.carry) t.flags ∧
    (¬FlagVOpen (s.reg ra).toInt ((s.reg rb).toInt + s.carry) →
      FlagVOverflow (s.reg ra).toInt ((s.reg rb).toInt + s.carry) t.flags) ∧
    (t.flags.c = true ↔ 65535 < (s.reg ra).toNat + (s.reg rb).toNat + s.carry) ∧ DataFrame s t

/-- ADDI, ADDIB and ADCI add a sign-extended immediate; V is signed overflow for every operand; C is the adder's carry on
the extended pattern, the spec's decision D14 (log entry 22). That AluOut stays is DEDUCED (log entry 15). -/
def Obligations.AddImmediatesSignExtend : Prop :=
  ∀ (rd ra : Reg) (imm : BitVec 5) (byte : BitVec 8) (s : State),
    (∃ t, exec (.addi rd ra imm) s = .next t ∧
      OnlyRegister rd (s.reg ra + imm.signExtend 16) s t ∧ FlagsNZ (s.reg ra + imm.signExtend 16) t.flags ∧
      FlagVOverflow (s.reg ra).toInt imm.toInt t.flags ∧
      (t.flags.c = true ↔ 65535 < (s.reg ra).toNat + (imm.signExtend 16).toNat) ∧ DataFrame s t) ∧
    (∃ t, exec (.addib rd byte) s = .next t ∧
      OnlyRegister rd (s.reg rd + byte.signExtend 16) s t ∧ FlagsNZ (s.reg rd + byte.signExtend 16) t.flags ∧
      FlagVOverflow (s.reg rd).toInt byte.toInt t.flags ∧
      (t.flags.c = true ↔ 65535 < (s.reg rd).toNat + (byte.signExtend 16).toNat) ∧ DataFrame s t) ∧
    (∃ t, exec (.adci rd ra imm) s = .next t ∧
      OnlyRegister rd (s.reg ra + imm.signExtend 16 + BitVec.ofNat 16 s.carry) s t ∧
      FlagsNZ (s.reg ra + imm.signExtend 16 + BitVec.ofNat 16 s.carry) t.flags ∧
      FlagVOverflow (s.reg ra).toInt (imm.toInt + s.carry) t.flags ∧
      (t.flags.c = true ↔ 65535 < (s.reg ra).toNat + (imm.signExtend 16).toNat + s.carry) ∧ DataFrame s t)

/-- NEG: zero minus the register; N and Z from the result, V and C the constant 0 also for 0x8000 (40_arithmetic.md R140).
That AluOut stays is DEDUCED (log entry 15). -/
def Obligations.NegWritesNegationAndClearsVC : Prop :=
  ∀ (rd ra : Reg) (s : State), ∃ t, exec (.neg rd ra) s = .next t ∧ OnlyRegister rd (-(s.reg ra)) s t ∧
    FlagsNZ (-(s.reg ra)) t.flags ∧ t.flags.v = false ∧ t.flags.c = false ∧ DataFrame s t ∧ t.draws = s.draws

/-- SUB and SUBI: the 16-bit difference and N, Z, V of the subtraction (40_arithmetic.md R141, R142). C is the parameter
`SUB_CARRY`, the spec's decision D7 (log entry 6): under the default nothing is said of it. That AluOut stays is DEDUCED
(log entry 15). -/
def Obligations.SubWritesDifferenceAndFlags : Prop :=
  ∀ (rd ra rb : Reg) (imm : BitVec 5) (s : State),
    (∃ t, exec (.sub rd ra rb) s = .next t ∧
      OnlyRegister rd (s.reg ra - s.reg rb) s t ∧ FlagsNZ (s.reg ra - s.reg rb) t.flags ∧
      (¬FlagVOpen (s.reg ra).toInt (-(s.reg rb).toInt) →
        FlagVOverflow (s.reg ra).toInt (-(s.reg rb).toInt) t.flags) ∧
      FlagCSubtract s.subCarry (s.reg ra).toNat (s.reg rb).toNat t.flags ∧ DataFrame s t) ∧
    (∃ t, exec (.subi rd ra imm) s = .next t ∧
      OnlyRegister rd (s.reg ra - imm.signExtend 16) s t ∧ FlagsNZ (s.reg ra - imm.signExtend 16) t.flags ∧
      FlagVOverflow (s.reg ra).toInt (-imm.toInt) t.flags ∧
      FlagCSubtract s.subCarry (s.reg ra).toNat (imm.signExtend 16).toNat t.flags ∧ DataFrame s t)

/-- SUC subtracts the old carry as well (40_arithmetic.md R144); C as for SUB (log entry 6). That AluOut stays is DEDUCED
(log entry 15). -/
def Obligations.SucSubtractsTheOldCarry : Prop :=
  ∀ (rd ra rb : Reg) (s : State), ∃ t, exec (.suc rd ra rb) s = .next t ∧
    OnlyRegister rd (s.reg ra - s.reg rb - BitVec.ofNat 16 s.carry) s t ∧
    FlagsNZ (s.reg ra - s.reg rb - BitVec.ofNat 16 s.carry) t.flags ∧
    (¬FlagVOpen (s.reg ra).toInt (-(s.reg rb).toInt - s.carry) →
      FlagVOverflow (s.reg ra).toInt (-(s.reg rb).toInt - s.carry) t.flags) ∧
    FlagCSubtract s.subCarry (s.reg ra).toNat ((s.reg rb).toNat + s.carry) t.flags ∧ DataFrame s t

/-- SUBIB and SUCI subtract a sign-extended immediate; the extension is the spec's decision D5 (log entry 12). That AluOut
stays is DEDUCED (log entry 15). -/
def Obligations.SubtractImmediatesSignExtend : Prop :=
  ∀ (rd ra : Reg) (imm : BitVec 5) (byte : BitVec 8) (s : State),
    (∃ t, exec (.subib rd byte) s = .next t ∧
      OnlyRegister rd (s.reg rd - byte.signExtend 16) s t ∧ FlagsNZ (s.reg rd - byte.signExtend 16) t.flags ∧
      FlagVOverflow (s.reg rd).toInt (-byte.toInt) t.flags ∧
      FlagCSubtract s.subCarry (s.reg rd).toNat (byte.signExtend 16).toNat t.flags ∧ DataFrame s t) ∧
    (∃ t, exec (.suci rd ra imm) s = .next t ∧
      OnlyRegister rd (s.reg ra - imm.signExtend 16 - BitVec.ofNat 16 s.carry) s t ∧
      FlagsNZ (s.reg ra - imm.signExtend 16 - BitVec.ofNat 16 s.carry) t.flags ∧
      FlagVOverflow (s.reg ra).toInt (-imm.toInt - s.carry) t.flags ∧
      FlagCSubtract s.subCarry (s.reg ra).toNat ((imm.signExtend 16).toNat + s.carry) t.flags ∧ DataFrame s t)

/-- CMP and CMPI set SUB's and SUBI's flags and write no register (40_arithmetic.md R146, R147); C as for SUB (log entry 6).
That AluOut stays is DEDUCED (log entry 15). -/
def Obligations.ComparesWriteOnlyFlags : Prop :=
  ∀ (ra rb : Reg) (imm : BitVec 5) (s : State),
    (∃ t, exec (.cmp ra rb) s = .next t ∧ SameRegisters s t ∧ FlagsNZ (s.reg ra - s.reg rb) t.flags ∧
      (¬FlagVOpen (s.reg ra).toInt (-(s.reg rb).toInt) →
        FlagVOverflow (s.reg ra).toInt (-(s.reg rb).toInt) t.flags) ∧
      FlagCSubtract s.subCarry (s.reg ra).toNat (s.reg rb).toNat t.flags ∧ DataFrame s t) ∧
    (∃ t, exec (.cmpi ra imm) s = .next t ∧ SameRegisters s t ∧ FlagsNZ (s.reg ra - imm.signExtend 16) t.flags ∧
      FlagVOverflow (s.reg ra).toInt (-imm.toInt) t.flags ∧
      FlagCSubtract s.subCarry (s.reg ra).toNat (imm.signExtend 16).toNat t.flags ∧ DataFrame s t)

/-- After `CMP Ra, Rb`, BE is taken exactly when the registers are equal, and, outside the case in which V is any value,
BLT exactly when the first is less as a signed number and BGE exactly when it is not; a branch changes nothing but PC
(40_arithmetic.md R146; 43_control_transfer.md R193, R194, R195). That AluOut stays is DEDUCED (log entry 15). -/
def Obligations.BranchAfterCompareDecidesSignedOrder : Prop :=
  ∀ (ra rb : Reg) (imm : BitVec 8) (s : State), ∃ t, exec (.cmp ra rb) s = .next t ∧
    exec (.be imm) t = .next (t.setPc (if s.reg ra = s.reg rb then t.pc + imm.signExtend 16 else t.pc + 1#16)) ∧
    (¬(s.reg ra = 0x0000#16 ∧ s.reg rb = 0x8000#16) →
      exec (.blt imm) t = .next (t.setPc
        (if (s.reg ra).toInt < (s.reg rb).toInt then t.pc + imm.signExtend 16 else t.pc + 1#16)) ∧
      exec (.bge imm) t = .next (t.setPc
        (if (s.reg rb).toInt ≤ (s.reg ra).toInt then t.pc + imm.signExtend 16 else t.pc + 1#16)))

/-- ADD on the low words and ADC on the high words add two 32-bit numbers (40_arithmetic.md R133, R135, R138), when the
low result does not overwrite an operand of the high addition. -/
def Obligations.AddThenAdcAddsTwoWordNumbers : Prop :=
  ∀ (lo hi aLo aHi bLo bHi : Reg) (s : State), lo ≠ aHi → lo ≠ bHi → hi ≠ lo →
    ∃ t u, exec (.add lo aLo bLo) s = .next t ∧ exec (.adc hi aHi bHi) t = .next u ∧
      (u.reg hi).toNat * 65536 + (u.reg lo).toNat =
        ((s.reg aHi).toNat * 65536 + (s.reg aLo).toNat + ((s.reg bHi).toNat * 65536 + (s.reg bLo).toNat)) % 2 ^ 32

/-! ### Logic and shifts (41_logic_shift.md) -/

/-- The six logical instructions work bit by bit, set N and Z from the result and touch nothing else but V and C, which hold
any value (41_logic_shift.md R160 to R166). That AluOut stays is DEDUCED (log entry 15). -/
def Obligations.LogicIsBitwise : Prop :=
  ∀ (rd ra rb : Reg) (s : State),
    (∃ t, exec (.and rd ra rb) s = .next t ∧ OtherRegisters rd s t ∧ FlagsNZ (t.reg rd) t.flags ∧ DataFrame s t ∧
      ∀ k, (t.reg rd).getLsbD k = ((s.reg ra).getLsbD k && (s.reg rb).getLsbD k)) ∧
    (∃ t, exec (.or rd ra rb) s = .next t ∧ OtherRegisters rd s t ∧ FlagsNZ (t.reg rd) t.flags ∧ DataFrame s t ∧
      ∀ k, (t.reg rd).getLsbD k = ((s.reg ra).getLsbD k || (s.reg rb).getLsbD k)) ∧
    (∃ t, exec (.xor rd ra rb) s = .next t ∧ OtherRegisters rd s t ∧ FlagsNZ (t.reg rd) t.flags ∧ DataFrame s t ∧
      ∀ k, (t.reg rd).getLsbD k = ((s.reg ra).getLsbD k != (s.reg rb).getLsbD k)) ∧
    (∃ t, exec (.not rd ra) s = .next t ∧ OtherRegisters rd s t ∧ FlagsNZ (t.reg rd) t.flags ∧ DataFrame s t ∧
      ∀ k, k < 16 → (t.reg rd).getLsbD k = !(s.reg ra).getLsbD k) ∧
    (∃ t, exec (.nand rd ra rb) s = .next t ∧ OtherRegisters rd s t ∧ FlagsNZ (t.reg rd) t.flags ∧ DataFrame s t ∧
      ∀ k, k < 16 → (t.reg rd).getLsbD k = !((s.reg ra).getLsbD k && (s.reg rb).getLsbD k)) ∧
    (∃ t, exec (.nor rd ra rb) s = .next t ∧ OtherRegisters rd s t ∧ FlagsNZ (t.reg rd) t.flags ∧ DataFrame s t ∧
      ∀ k, k < 16 → (t.reg rd).getLsbD k = !((s.reg ra).getLsbD k || (s.reg rb).getLsbD k))

/-- LSL moves the bits up and LSR moves them down, both shift in zeros; N and Z from the result, V and C any value; nothing
else but the destination changes (41_logic_shift.md R167, R168, R169). That AluOut stays is DEDUCED (log entry 15). -/
def Obligations.LogicalShiftsShiftInZeros : Prop :=
  ∀ (rd ra : Reg) (count : Nat) (s : State), count < 16 →
    (∃ t, exec (.lsl rd ra count) s = .next t ∧ OtherRegisters rd s t ∧ FlagsNZ (t.reg rd) t.flags ∧ DataFrame s t ∧
      ∀ k, k < 16 → (t.reg rd).getLsbD k = (decide (count ≤ k) && (s.reg ra).getLsbD (k - count))) ∧
    (∃ t, exec (.lsr rd ra count) s = .next t ∧ OtherRegisters rd s t ∧ FlagsNZ (t.reg rd) t.flags ∧ DataFrame s t ∧
      ∀ k, k < 16 → (t.reg rd).getLsbD k = (s.reg ra).getLsbD (k + count))

/-- ASR moves the bits down and shifts in copies of bit 15; N is the source's sign, Z from the result, V and C any value
(41_logic_shift.md R167, R170). That AluOut stays is DEDUCED (log entry 15). -/
def Obligations.AsrShiftsInTheSign : Prop :=
  ∀ (rd ra : Reg) (count : Nat) (s : State), count < 16 →
    ∃ t, exec (.asr rd ra count) s = .next t ∧ OtherRegisters rd s t ∧ FlagsNZ (t.reg rd) t.flags ∧ DataFrame s t ∧
      t.flags.n = (s.reg ra).getLsbD 15 ∧
      ∀ k, k < 16 → (t.reg rd).getLsbD k =
        (if k + count < 16 then (s.reg ra).getLsbD (k + count) else (s.reg ra).getLsbD 15)

/-! ### Data transfer and byte loads (42_data_transfer.md) -/

/-- LDW from main memory: Rd gets the word at the effective address; where nothing was ever written there it is any value.
Nothing else changes but PC and AluOut. The address rests on the spec's decision D5 (log entry 12), the open value on log
entry 8. -/
def Obligations.LdwLoadsFromMainMemory : Prop :=
  ∀ (rd ra : Reg) (imm : BitVec 5) (s : State), (effectiveAddress (s.reg ra) imm).toNat < 0x0800 →
    ∃ w t, s.ReadsAs (effectiveAddress (s.reg ra) imm) w ∧ exec (.ldw rd ra imm) s = .next t ∧
      OnlyRegister rd w s t ∧ t.flags = s.flags ∧ SameMemory s t ∧ SameControl s t ∧ t.pc = s.pc + 1#16 ∧
      t.draws = s.draws

/-- LDW from the switches reads the host's value and changes no device; LDW from the serial data register reads the held
value and releases the request (60_exceptions.md R262, R264). The release on read is the spec's decision D18 (log
entry 24). -/
def Obligations.LdwReadsDevices : Prop :=
  ∀ (rd ra : Reg) (imm : BitVec 5) (s : State),
    (effectiveAddress (s.reg ra) imm = 0x0800#16 →
      ∃ t, exec (.ldw rd ra imm) s = .next t ∧ OnlyRegister rd s.dev.switches s t ∧ t.dev = s.dev ∧
        t.flags = s.flags ∧ SameMemory s t ∧ t.lr = s.lr ∧ t.ie = s.ie ∧ SameConstants s t ∧ t.pc = s.pc + 1#16 ∧
        t.draws = s.draws) ∧
    (effectiveAddress (s.reg ra) imm = 0xA000#16 →
      ∃ t, exec (.ldw rd ra imm) s = .next t ∧ OnlyRegister rd s.dev.serialData s t ∧
        t.dev = { s.dev with serialUnread := false } ∧ t.dev.irqPending = false ∧
        t.flags = s.flags ∧ SameMemory s t ∧ t.lr = s.lr ∧ t.ie = s.ie ∧ SameConstants s t ∧ t.pc = s.pc + 1#16 ∧
        t.draws = s.draws)

/-- STW to main memory: the word at the effective address becomes Rd, every other word reads as before, no register and no
flag changes. The address rests on the spec's decision D5 (log entry 12). -/
def Obligations.StwStoresToMainMemory : Prop :=
  ∀ (rd ra : Reg) (imm : BitVec 5) (s : State), (effectiveAddress (s.reg ra) imm).toNat < 0x0800 →
    ∃ t, exec (.stw rd ra imm) s = .next t ∧ t.word (effectiveAddress (s.reg ra) imm) = some (s.reg rd) ∧
      SameMemoryExcept (effectiveAddress (s.reg ra) imm) s t ∧ SameRegisters s t ∧ t.flags = s.flags ∧
      SameControl s t ∧ t.pc = s.pc + 1#16 ∧ t.draws = s.draws

/-- STW to the LEDs sets the latch; STW of 0x0001 to the serial control register enables the device's interrupt; no word
of memory, register or flag changes (60_exceptions.md R263, R265; what the store enables is the spec's decision D19, log
entry 24). -/
def Obligations.StwWritesDevices : Prop :=
  ∀ (rd ra : Reg) (imm : BitVec 5) (s : State),
    (effectiveAddress (s.reg ra) imm = 0x0801#16 →
      ∃ t, exec (.stw rd ra imm) s = .next t ∧ t.dev = { s.dev with leds := s.reg rd } ∧ SameRegisters s t ∧
        SameMemory s t ∧ t.flags = s.flags ∧ t.lr = s.lr ∧ t.ie = s.ie ∧ SameConstants s t ∧ t.pc = s.pc + 1#16 ∧
        t.draws = s.draws) ∧
    (effectiveAddress (s.reg ra) imm = 0xA001#16 → s.reg rd = 0x0001#16 →
      ∃ t, exec (.stw rd ra imm) s = .next t ∧ t.dev = { s.dev with serialIntEnable := true } ∧ SameRegisters s t ∧
        SameMemory s t ∧ t.flags = s.flags ∧ t.lr = s.lr ∧ t.ie = s.ie ∧ SameConstants s t ∧ t.pc = s.pc + 1#16 ∧
        t.draws = s.draws)

/-- The accesses the spec gives no behaviour are refused by name, whichever instruction makes them: a load (LDW, POP, LDF,
RETI) from an unpopulated address, from the LEDs or from the serial control register; a store (STW, PUSH, STF, interrupt
entry) to an unpopulated address, to the switches, to the serial data register, or of another value than 0x0001 to the serial
control register (20_memory.md R54, R55, R57). The refusals are the spec's decisions D10 and D19 (log entry 14). -/
def Obligations.UndescribedAccessesAreRefused : Prop :=
  ∀ (s : State) (why : Refusal),
    (∀ (rd ra : Reg) (imm : BitVec 5), LoadUndescribed (effectiveAddress (s.reg ra) imm) why →
      exec (.ldw rd ra imm) s = .refused why) ∧
    (LoadUndescribed (s.reg .r7) why → exec .ldf s = .refused why ∧ exec .reti s = .refused why ∧
      ∀ dst : StackReg, dst ≠ .gpr .r7 → exec (.pop dst) s = .refused why) ∧
    (∀ (rd ra : Reg) (imm : BitVec 5), StoreUndescribed (effectiveAddress (s.reg ra) imm) (s.reg rd) why →
      exec (.stw rd ra imm) s = .refused why) ∧
    (∀ src : StackReg, src ≠ .gpr .r7 → StoreUndescribed (s.reg .r7 - 1#16) (s.stackReg src) why →
      exec (.push src) s = .refused why) ∧
    (StoreUndescribed (s.reg .r7 - 1#16) (flagWord s.flags) why → exec .stf s = .refused why) ∧
    (s.Enters → StoreUndescribed (s.reg .r7 - 1#16) s.pc why → step s = .refused why)

/-- LUI: the byte in the top half, zero in the bottom half, nothing else but PC changes (42_data_transfer.md R183). That
AluOut stays is DEDUCED (log entry 15). -/
def Obligations.LuiLoadsTheUpperByte : Prop :=
  ∀ (rd : Reg) (imm : BitVec 8) (s : State), ∃ t, exec (.lui rd imm) s = .next t ∧ OtherRegisters rd s t ∧
    (t.reg rd).toNat = imm.toNat * 256 ∧ t.flags = s.flags ∧ DataFrame s t ∧ t.draws = s.draws

/-- LLI: the byte in the bottom half, the top half kept, nothing else but PC changes (42_data_transfer.md R184). That AluOut
stays is DEDUCED (log entry 15). -/
def Obligations.LliReplacesTheLowerByte : Prop :=
  ∀ (rd : Reg) (imm : BitVec 8) (s : State), ∃ t, exec (.lli rd imm) s = .next t ∧ OtherRegisters rd s t ∧
    (∀ k, k < 8 → (t.reg rd).getLsbD k = imm.getLsbD k) ∧
    (∀ k, 8 ≤ k → (t.reg rd).getLsbD k = (s.reg rd).getLsbD k) ∧
    t.flags = s.flags ∧ DataFrame s t ∧ t.draws = s.draws

/-- LUI then LLI builds any 16-bit constant, whatever the register held (42_data_transfer.md R185). -/
def Obligations.LuiThenLliBuildsAnyConstant : Prop :=
  ∀ (rd : Reg) (k : Word) (s : State), ∃ t u, exec (.lui rd (k.extractLsb' 8 8)) s = .next t ∧
    exec (.lli rd (k.extractLsb' 0 8)) t = .next u ∧ OnlyRegister rd k s u ∧ u.flags = s.flags ∧
    u.pc = s.pc + 2#16

/-! ### Control transfer (43_control_transfer.md) -/

/-- BR goes to PC plus its signed offset and BWL does so too, leaving the address after itself in LR; nothing else changes
(43_control_transfer.md R190 d, R191, R196). The wrap modulo 2^16 is the spec's decision D3 (log entry 20). That AluOut
stays is DEDUCED (log entry 15). -/
def Obligations.BrAndBwlAddTheOffset : Prop :=
  ∀ (imm : BitVec 8) (s : State),
    exec (.br imm) s = .next { s with pc := s.pc + imm.signExtend 16 } ∧
    exec (.bwl imm) s = .next { s with lr := s.pc + 1#16, pc := s.pc + imm.signExtend 16 }

/-- BNE is taken when Z is 0 and BE when Z is 1; otherwise the next instruction follows; nothing but PC changes
(43_control_transfer.md R192, R193). That AluOut stays is DEDUCED (log entry 15). -/
def Obligations.BneAndBeTestZ : Prop :=
  ∀ (imm : BitVec 8) (s : State),
    exec (.bne imm) s = .next { s with pc := if s.flags.z = false then s.pc + imm.signExtend 16 else s.pc + 1#16 } ∧
    exec (.be imm) s = .next { s with pc := if s.flags.z = true then s.pc + imm.signExtend 16 else s.pc + 1#16 }

/-- BLT is taken when N differs from V and BGE when N equals V; nothing but PC changes (43_control_transfer.md R194, R195).
That AluOut stays is DEDUCED (log entry 15). -/
def Obligations.BltAndBgeCompareNV : Prop :=
  ∀ (imm : BitVec 8) (s : State),
    exec (.blt imm) s =
      .next { s with pc := if s.flags.n ≠ s.flags.v then s.pc + imm.signExtend 16 else s.pc + 1#16 } ∧
    exec (.bge imm) s =
      .next { s with pc := if s.flags.n = s.flags.v then s.pc + imm.signExtend 16 else s.pc + 1#16 }

/-- RET goes to LR and leaves it; JMP goes to the base plus its signed offset, whatever PC was; nothing else changes
(43_control_transfer.md R197, R198). JMP's extension is the spec's decision D5 (log entry 12). That AluOut stays is DEDUCED
(log entry 15). -/
def Obligations.RetAndJmpSetPc : Prop :=
  ∀ (ra : Reg) (imm : BitVec 5) (s : State),
    exec .ret s = .next { s with pc := s.lr } ∧
    exec (.jmp ra imm) s = .next { s with pc := s.reg ra + imm.signExtend 16 }

/-! ### Stack (44_stack.md) -/

/-- PUSH onto main memory: R7 goes down by one and the word there becomes the register pushed, LR or a general one; every
other word, register and flag stays (44_stack.md R210, R211). Nothing is said of AluOut, which PUSH writes (log entry 15). -/
def Obligations.PushStoresBelowTheTop : Prop :=
  ∀ (src : StackReg) (s : State), src ≠ .gpr .r7 → (previousAddress s.sp).toNat < 0x0800 →
    ∃ t, exec (.push src) s = .next t ∧ previousAddress s.sp = s.reg .r7 - 1#16 ∧
      OnlyRegister .r7 (s.reg .r7 - 1#16) s t ∧
      t.word (previousAddress s.sp) = some (match src with | .gpr r => s.reg r | .lr => s.lr) ∧
      SameMemoryExcept (previousAddress s.sp) s t ∧ t.flags = s.flags ∧ SameControl s t ∧ t.pc = s.pc + 1#16 ∧
      t.draws = s.draws

/-- POP from main memory: the word R7 points at goes to a general register or to LR, R7 goes up by one; the word stays in
memory, every other register and the flags stay (44_stack.md R210, R212). A word never written is any value (log
entry 8). -/
def Obligations.PopLoadsTheTop : Prop :=
  ∀ (s : State), (s.reg .r7).toNat < 0x0800 → ∃ w, s.ReadsAs (s.reg .r7) w ∧
    (∀ r : Reg, r ≠ .r7 → ∃ t, exec (.pop (.gpr r)) s = .next t ∧ t.reg r = w ∧ t.reg .r7 = s.reg .r7 + 1#16 ∧
      (∀ q : Reg, q ≠ r → q ≠ .r7 → t.reg q = s.reg q) ∧ SameMemory s t ∧ t.flags = s.flags ∧ SameControl s t ∧
      t.pc = s.pc + 1#16 ∧ t.draws = s.draws) ∧
    (∃ t, exec (.pop .lr) s = .next t ∧ t.lr = w ∧ OnlyRegister .r7 (s.reg .r7 + 1#16) s t ∧ SameMemory s t ∧
      t.flags = s.flags ∧ t.ie = s.ie ∧ t.dev = s.dev ∧ SameConstants s t ∧ t.pc = s.pc + 1#16 ∧ t.draws = s.draws)

/-- PUSH and POP of R7 are refused: the spec's decision D15 (log entry 13). -/
def Obligations.StackPointerOperandIsRefused : Prop :=
  ∀ s : State, exec (.push (.gpr .r7)) s = .refused .pushOfStackPointer ∧
    exec (.pop (.gpr .r7)) s = .refused .popOfStackPointer

/-- What is pushed is popped back, into any register, and R7 is where it was (44_stack.md R210 to R212). -/
def Obligations.PushThenPopMovesTheValue : Prop :=
  ∀ (src dst : StackReg) (s : State), src ≠ .gpr .r7 → dst ≠ .gpr .r7 → (s.reg .r7 - 1#16).toNat < 0x0800 →
    ∃ t u, exec (.push src) s = .next t ∧ exec (.pop dst) t = .next u ∧ u.stackReg dst = s.stackReg src ∧
      u.reg .r7 = s.reg .r7 ∧ (∀ q : Reg, .gpr q ≠ dst → u.reg q = s.reg q) ∧ (dst ≠ .lr → u.lr = s.lr) ∧
      u.flags = s.flags ∧ u.pc = s.pc + 2#16

/-- Stack accesses reach the devices like any other access (60_exceptions.md R267; 20_memory.md R66). POP of any register or
LR, LDF and RETI read the switches at 0x0800 and change no device; at 0xA000 they take the serial value and release the
request. PUSH of any register or LR and STF set the LED latch at 0x0801 and, storing 0x0001, enable the serial interrupt at
0xA001; so does interrupt entry. No word of memory and no other register changes, and PC goes where the instruction says. The
release is the spec's decision D18, what a store to the control register does its decision D19, the pop of RETI its decision
D16, the entry its decision D17 (log entries 24, 18 and 19). That AluOut and IR stay at entry is DEDUCED (log entries 15 and
16). -/
def Obligations.StackAccessesReachDevices : Prop :=
  ∀ (s : State) (v : Word) (d : Device),
    ((s.reg .r7 = 0x0800#16 ∧ v = s.dev.switches ∧ d = s.dev ∨
        s.reg .r7 = 0xA000#16 ∧ v = s.dev.serialData ∧ d = { s.dev with serialUnread := false }) →
      (∀ r : Reg, r ≠ .r7 → ∃ t, exec (.pop (.gpr r)) s = .next t ∧ t.reg r = v ∧ t.reg .r7 = s.reg .r7 + 1#16 ∧
        (∀ q : Reg, q ≠ r → q ≠ .r7 → t.reg q = s.reg q) ∧ t.dev = d ∧ SameMemory s t ∧ t.flags = s.flags ∧
        t.lr = s.lr ∧ t.pc = s.pc + 1#16) ∧
      (∃ t, exec (.pop .lr) s = .next t ∧ t.lr = v ∧ t.dev = d ∧ OnlyRegister .r7 (s.reg .r7 + 1#16) s t ∧
        SameMemory s t ∧ t.flags = s.flags ∧ t.pc = s.pc + 1#16) ∧
      (∃ t, exec .ldf s = .next t ∧ t.flags = ⟨v.getLsbD 0, v.getLsbD 3, v.getLsbD 1, v.getLsbD 2⟩ ∧ t.dev = d ∧
        OnlyRegister .r7 (s.reg .r7 + 1#16) s t ∧ SameMemory s t ∧ t.lr = s.lr ∧ t.pc = s.pc + 1#16) ∧
      ∃ t, exec .reti s = .next t ∧ t.pc = v ∧ t.dev = d ∧ OnlyRegister .r7 (s.reg .r7 + 1#16) s t ∧
        SameMemory s t ∧ t.flags = s.flags ∧ t.lr = s.lr) ∧
    ((s.reg .r7 = 0x0802#16 ∧ d = { s.dev with leds := v } ∨
        s.reg .r7 = 0xA002#16 ∧ v = 0x0001#16 ∧ d = { s.dev with serialIntEnable := true }) →
      (∀ src : StackReg, src ≠ .gpr .r7 → s.stackReg src = v → ∃ t, exec (.push src) s = .next t ∧ t.dev = d ∧
        OnlyRegister .r7 (s.reg .r7 - 1#16) s t ∧ SameMemory s t ∧ t.flags = s.flags ∧ t.lr = s.lr ∧
        t.pc = s.pc + 1#16) ∧
      (flagWord s.flags = v → ∃ t, exec .stf s = .next t ∧ t.dev = d ∧
        OnlyRegister .r7 (s.reg .r7 - 1#16) s t ∧ SameMemory s t ∧ t.flags = s.flags ∧ t.lr = s.lr ∧
        t.pc = s.pc + 1#16) ∧
      (s.pc = v → enterInterrupt s = .next { s.setReg .r7 (s.reg .r7 - 1#16) with
        dev := d, ie := false, pc := s.isrVector })) ∧
    (s.Enters → step s = enterInterrupt s.tick)

/-! ### Interrupt instructions (45_interrupt_instructions.md) -/

/-- RETI: PC becomes the word R7 points at and R7 goes up by one; the flags, IE, LR, memory and the other registers stay
(45_interrupt_instructions.md R221). That R7 moves is the spec's decision D16 (log entry 18). -/
def Obligations.RetiPopsPc : Prop :=
  ∀ s : State, (s.reg .r7).toNat < 0x0800 → ∃ w t, s.ReadsAs (s.reg .r7) w ∧ exec .reti s = .next t ∧ t.pc = w ∧
    OnlyRegister .r7 (s.reg .r7 + 1#16) s t ∧ SameMemory s t ∧ t.flags = s.flags ∧ SameControl s t ∧ t.draws = s.draws

/-- ENAI sets IE, DISI clears it; nothing else but PC changes (45_interrupt_instructions.md R222, R223). That AluOut stays
is DEDUCED (log entry 15). -/
def Obligations.EnaiAndDisiWriteIe : Prop :=
  ∀ s : State, exec .enai s = .next { s with ie := true, pc := s.pc + 1#16 } ∧
    exec .disi s = .next { s with ie := false, pc := s.pc + 1#16 }

/-- STF pushes `8*Z + 4*C + 2*V + N`; the flags, IE, the other registers and words stay (10_state.md R25;
45_interrupt_instructions.md R224). -/
def Obligations.StfPushesTheFlagWord : Prop :=
  ∀ s : State, (previousAddress s.sp).toNat < 0x0800 →
    ∃ t, exec .stf s = .next t ∧ previousAddress s.sp = s.reg .r7 - 1#16 ∧
      OnlyRegister .r7 (s.reg .r7 - 1#16) s t ∧
      t.word (previousAddress s.sp) = some (BitVec.ofNat 16
        (8 * s.flags.z.toNat + 4 * s.flags.c.toNat + 2 * s.flags.v.toNat + s.flags.n.toNat)) ∧
      SameMemoryExcept (previousAddress s.sp) s t ∧ t.flags = s.flags ∧ SameControl s t ∧ t.pc = s.pc + 1#16 ∧
      t.draws = s.draws

/-- LDF pops a word and takes N, V, C, Z from its bits 0, 1, 2, 3; IE, memory and the other registers stay (10_state.md
R25; 45_interrupt_instructions.md R225). A word never written is any value (log entry 8). -/
def Obligations.LdfPopsTheFlags : Prop :=
  ∀ s : State, (s.reg .r7).toNat < 0x0800 → ∃ w t, s.ReadsAs (s.reg .r7) w ∧ exec .ldf s = .next t ∧
    t.flags = ⟨w.getLsbD 0, w.getLsbD 3, w.getLsbD 1, w.getLsbD 2⟩ ∧ OnlyRegister .r7 (s.reg .r7 + 1#16) s t ∧
    SameMemory s t ∧ SameControl s t ∧ t.pc = s.pc + 1#16 ∧ t.draws = s.draws

/-- An ISR as the manual requires returns to the interrupted program: after entry and STF, any work that leaves R7 and the
two words on the stack as they were, then LDF and RETI restore the flags, R7 and PC of the interrupted program
(60_exceptions.md R249; 45_interrupt_instructions.md R226). The pop of RETI is the spec's decision D16, the entry its
decision D17 (log entries 18 and 19). -/
def Obligations.IsrReturnsToTheInterruptedProgram : Prop :=
  ∀ s a b w : State, (s.reg .r7 - 1#16).toNat < 0x0800 → (s.reg .r7 - 2#16).toNat < 0x0800 →
    enterInterrupt s = .next a → exec .stf a = .next b → w.reg .r7 = b.reg .r7 →
    w.word (s.reg .r7 - 1#16) = b.word (s.reg .r7 - 1#16) → w.word (s.reg .r7 - 2#16) = b.word (s.reg .r7 - 2#16) →
    ∃ c d, exec .ldf w = .next c ∧ exec .reti c = .next d ∧ d.pc = s.pc ∧ d.flags = s.flags ∧
      d.reg .r7 = s.reg .r7 ∧ d.ie = w.ie ∧ d.lr = w.lr ∧ ∀ r : Reg, r ≠ .r7 → d.reg r = w.reg r

/-- ENAI takes effect at the boundary that ends it: with nIRQ low, the step after an ENAI is the interrupt entry, and it
pushes the address of the instruction after the ENAI (70_reset_and_hazards.md R288). The choice is the spec's decision D17
(log entry 19). -/
def Obligations.EnaiActsAtTheNextBoundary : Prop :=
  ∀ s t : State, exec .enai s = .next t → s.dev.serialIntEnable = true → s.dev.serialUnread = true →
    (s.reg .r7 - 1#16).toNat < 0x0800 →
    ∃ u, step t = .next u ∧ u.pc = s.isrVector ∧ u.ie = false ∧ u.word (s.reg .r7 - 1#16) = some (s.pc + 1#16)

/-! ### Memory and devices (20_memory.md, 60_exceptions.md) -/

/-- A word stored at the next instruction's address is the instruction that runs next; an instruction that stores to its own
address, STW, PUSH or STF, is not affected and completes as itself, the new word standing there for the next fetch
(20_memory.md R65; 70_reset_and_hazards.md R289). Coherence is the spec's decision D9 (log entry 23); that only
the fetch writes IR is log entry 16. -/
def Obligations.StoredWordIsFetchedNext : Prop :=
  (∀ (rd ra : Reg) (imm : BitVec 5) (s t : State) (i : Instr), exec (.stw rd ra imm) s = .next t →
    effectiveAddress (s.reg ra) imm = s.pc + 1#16 → (s.pc + 1#16).toNat < 0x0800 → decode (s.reg rd) = .ok i →
    t.tick.takesInterrupt = false → step t = exec i (t.executing (s.reg rd))) ∧
  (∀ (s : State) (w : Word), s.tick.takesInterrupt = false → s.pc.toNat < 0x0800 → s.mem.read s.pc = some w →
    (∀ (rd ra : Reg) (imm : BitVec 5), decode w = .ok (.stw rd ra imm) → effectiveAddress (s.reg ra) imm = s.pc →
      ∃ t, step s = .next t ∧ t.word s.pc = some (s.reg rd) ∧ SameMemoryExcept s.pc s t ∧ SameRegisters s t ∧
        t.ir = w ∧ t.pc = s.pc + 1#16) ∧
    (∀ src : StackReg, src ≠ .gpr .r7 → decode w = .ok (.push src) → s.reg .r7 - 1#16 = s.pc →
      ∃ t, step s = .next t ∧ t.word s.pc = some (s.stackReg src) ∧ SameMemoryExcept s.pc s t ∧
        OnlyRegister .r7 s.pc s t ∧ t.ir = w ∧ t.pc = s.pc + 1#16) ∧
    (decode w = .ok .stf → s.reg .r7 - 1#16 = s.pc →
      ∃ t, step s = .next t ∧ t.word s.pc = some (flagWord s.flags) ∧ SameMemoryExcept s.pc s t ∧
        OnlyRegister .r7 s.pc s t ∧ t.ir = w ∧ t.pc = s.pc + 1#16))

/-- What each instruction can change is what its row of the table 10_state.md R38 says: no other general register; the
flags only if the row says so; LR only by BWL and POP LR; IE only by ENAI and DISI; no word of memory but the one stored
to, and no LED latch or serial enable without a store; PC goes to the next instruction unless control is transferred;
`ISR_VECTOR`, `SUB_CARRY`, the switches, IR and the arrival script never. -/
def Obligations.InstructionsWriteOnlyTheirRow : Prop :=
  ∀ (i : Instr) (s t : State), exec i s = .next t →
    (∀ r : Reg, r ∉ i.destinations → t.reg r = s.reg r) ∧
    (i.writesFlags = false → t.flags = s.flags) ∧
    (i.writesLr = false → t.lr = s.lr) ∧
    (i ≠ .enai → i ≠ .disi → t.ie = s.ie) ∧
    (∀ a : Word, i.storeAddress s ≠ some a → t.word a = s.word a) ∧
    (i.storeAddress s = none → t.dev.leds = s.dev.leds ∧ t.dev.serialIntEnable = s.dev.serialIntEnable) ∧
    (i.loadAddress s ≠ some 0xA000#16 → t.dev.serialUnread = s.dev.serialUnread) ∧
    (i.transfersControl = false → t.pc = s.pc + 1#16) ∧
    t.dev.switches = s.dev.switches ∧ t.dev.serialData = s.dev.serialData ∧ t.dev.arrivals = s.dev.arrivals ∧
    SameConstants s t

/-- IE is written and read only as 60_exceptions.md R243 lists: reset, DISI and interrupt entry clear it, ENAI sets it, no
step changes it otherwise; no instruction reads it: with another IE an instruction does the same. -/
def Obligations.IeIsWrittenAndReadOnlyAsListed : Prop :=
  State.reset.ie = false ∧
  (∀ s : State, (∃ t, exec .enai s = .next t ∧ t.ie = true) ∧ ∃ t, exec .disi s = .next t ∧ t.ie = false) ∧
  (∀ s t : State, step s = .next t → s.Enters → t.ie = false) ∧
  (∀ s t : State, step s = .next t → t.ie ≠ s.ie →
    (t.ie = true ∧ s.Executes .enai) ∨ (t.ie = false ∧ (s.Executes .disi ∨ s.Enters))) ∧
  (∀ (s : State) (b : Bool), exec .enai { s with ie := b } = exec .enai s ∧ exec .disi { s with ie := b } = exec .disi s) ∧
  (∀ (i : Instr) (s t : State) (b : Bool), i ≠ .enai → i ≠ .disi → exec i s = .next t →
    exec i { s with ie := b } = .next { t with ie := b })

/-- LR changes in a step only by BWL and by POP LR; interrupt entry and RETI do not touch it (10_state.md R23). -/
def Obligations.OnlyBwlAndPopWriteLr : Prop :=
  ∀ s t : State, step s = .next t → t.lr ≠ s.lr → (∃ imm, s.Executes (.bwl imm)) ∨ s.Executes (.pop .lr)

/-- A word of main memory changes in a step only by STW at its effective address, or by PUSH, STF or interrupt entry below
the top of the stack (20_memory.md R55). -/
def Obligations.OnlyListedStoresWriteMemory : Prop :=
  ∀ (s t : State) (a : Word), step s = .next t → t.word a ≠ s.word a →
    (∃ rd ra imm, s.Executes (.stw rd ra imm) ∧ a = effectiveAddress (s.reg ra) imm) ∨
    ((s.Enters ∨ s.Executes .stf ∨ ∃ src, s.Executes (.push src)) ∧ a = s.reg .r7 - 1#16)

/-- The request a received value raises stays until the value is read at 0xA000 (60_exceptions.md R242, R264): a step that
turns nIRQ high, or takes the unread mark away, executes an instruction that loads from there, and no step turns the device's
interrupt off. The release on read is the spec's decision D18, that the enable stays its decision D19 (log entry 24). -/
def Obligations.RequestIsHeldUntilRead : Prop :=
  ∀ s t : State, step s = .next t →
    (s.dev.irqPending = true → t.dev.irqPending = false →
      ∃ i, s.Executes i ∧ i.loadAddress s = some 0xA000#16) ∧
    (s.dev.serialUnread = true → t.dev.serialUnread = false →
      ∃ i, s.Executes i ∧ i.loadAddress s = some 0xA000#16) ∧
    (s.dev.serialIntEnable = true → t.dev.serialIntEnable = true)

/-- The LED latch keeps its value until a store to 0x0801 (60_exceptions.md R263). -/
def Obligations.LedsChangeOnlyByStores : Prop :=
  ∀ s t : State, step s = .next t → t.dev.leds ≠ s.dev.leds →
    (∃ i, s.Executes i ∧ i.storeAddress s = some 0x0801#16) ∨ (s.Enters ∧ s.reg .r7 = 0x0802#16)

/-- No step changes `ISR_VECTOR`, `SUB_CARRY` or the switches (60_exceptions.md R247, R262). That `ISR_VECTOR` is a field nothing writes is
log entry 4, that `SUB_CARRY` is constant for a run the spec's decision D7 and its parameter of U5 (log entry 6), that the
switches are its decision D20 (log entry 5). -/
def Obligations.RunParametersAreConstant : Prop :=
  ∀ s t : State, step s = .next t →
    t.isrVector = s.isrVector ∧ t.subCarry = s.subCarry ∧ t.dev.switches = s.dev.switches

/-- While IE is 0 the level of nIRQ has no effect on the processor: two states that differ only in the device's unread and
enable bits step to states with the same processor state and LED latch (60_exceptions.md R244). -/
def Obligations.MaskedRequestHasNoEffect : Prop :=
  ∀ (s t : State) (unread enable : Bool), s.ie = false → step s = .next t →
    ∃ t', step { s with dev := { s.dev with serialUnread := unread, serialIntEnable := enable } } = .next t' ∧
      SameProcessor t t' ∧ t'.dev.leds = t.dev.leds

/-! ### Invariants, reset and the end of a run -/

/-- Every step keeps the invariant: memory in its canonical form, inside main memory, and no scheduled arrival missed. The form of
memory is log entry 9, the script of arrivals and the count of boundaries log entry 10. -/
def Obligations.StepKeepsTheInvariant : Prop :=
  ∀ s t : State, s.Inv → step s = .next t → t.Inv

/-- The invariant holds after reset and after the host has loaded any program that fits into main memory; the image then
stands at `RESET_PC` upward (70_reset_and_hazards.md R285; `RESET_PC` = 0x0000 is the model's choice, log entry 1; the
load is log entry 17, the empty script of arrivals log entry 10). -/
def Obligations.ResetAndLoadMeetTheInvariant : Prop :=
  State.reset.Inv ∧ ∀ image : List Word, image.length ≤ 0x0800 →
    (State.reset.loadProgram image).Inv ∧
    ∀ (k : Nat) (h : k < image.length), (State.reset.loadProgram image).word (BitVec.ofNat 16 k) = some image[k]

/-- After reset interrupts are disabled: whatever the device does and whatever program was loaded, the first step does not
enter the ISR (70_reset_and_hazards.md R280). -/
def Obligations.ResetDisablesInterrupts : Prop :=
  State.reset.ie = false ∧ ∀ (image : List Word) (d : Device),
    ¬({ State.reset.loadProgram image with dev := d } : State).Enters

/-- A final state is left by no number of steps: the branch to itself runs for ever and the processor and the LED latch stay
as they are, but for IR, which holds the branch (70_reset_and_hazards.md R290). The notion is the spec's decision D22 (log
entry 27). That AluOut stays is DEDUCED (log entry 15). -/
def Obligations.FinalStatesStayFinal : Prop :=
  ∀ (s : State) (k : Nat), s.Final → s.ir = 0xF000#16 →
    ∃ t : State, Host.Core.run core k s = .next t ∧ t.Final ∧ SameProcessor s t ∧ t.dev.leds = s.dev.leds

/-! ### Hand assembly (30_encoding.md R119) -/

/-- One source line with an instruction produces one word, and no other line produces any; the words stand in source order:
word k of the image decodes to the instruction that the k-th instruction line denotes, mnemonic and operands (30_encoding.md
R112 to R114, R119). Conversely, a source text that passes the checks on the whole text, and each of whose instruction lines
denotes an instruction, assembles to the encodings of those instructions (R117). Hand assembly is the spec's decision D12;
where the source language is not stated it is the model's choice (log entries 28, 31, 32, 34, 35, 36 and 38). -/
def Obligations.AssembledWordsAreTheirLinesInstructions : Prop :=
  (∀ (source : List String) (image : List Word), assemble source = .ok image →
    image.length = (source.filterMap instructionTokens).length ∧
    (programLines source).map (fun l => l.mnemonic :: l.operands) = source.filterMap instructionTokens ∧
    ∃ isr, checkSource source = .ok isr ∧
      ∀ (k : Nat) (h : k < image.length), ∃ l i, (programLines source)[k]? = some l ∧ l.address = k ∧
        l.Denotes source isr i ∧ i.WellFormed = true ∧ decode image[k] = .ok i) ∧
  (∀ (source : List String) (isr : Option IsrRange) (program : List Instr), checkSource source = .ok isr →
    List.Forall₂ (fun l i => AsmLine.Denotes source isr l i) (programLines source) program →
    assemble source = .ok (program.map encode))

/-! ### N and Z of the arithmetic instructions (40_arithmetic.md R131) -/

/-- N and Z depend on the 16-bit result only, read as a two's complement number: N is 1 exactly when it is below 0, which is
its bit 15, and Z exactly when it is 0, for every arithmetic instruction, whatever its operands, NEG, CMP and CMPI included
(40_arithmetic.md R131). The result is what the instruction leaves in Rd; for the two compares it is the difference. -/
def Obligations.ArithmeticNZFollowTheResult : Prop :=
  ∀ (rd ra rb : Reg) (imm : BitVec 5) (byte : BitVec 8) (s : State),
    (∀ i ∈ [Instr.add rd ra rb, .addi rd ra imm, .addib rd byte, .adc rd ra rb, .adci rd ra imm, .neg rd ra,
        .sub rd ra rb, .subi rd ra imm, .subib rd byte, .suc rd ra rb, .suci rd ra imm],
      ∃ t, exec i s = .next t ∧ FlagsNZ (t.reg rd) t.flags ∧ t.flags.n = (t.reg rd).getLsbD 15) ∧
    (∃ t, exec (.cmp ra rb) s = .next t ∧ FlagsNZ (s.reg ra - s.reg rb) t.flags ∧
      t.flags.n = (s.reg ra - s.reg rb).getLsbD 15) ∧
    (∃ t, exec (.cmpi ra imm) s = .next t ∧ FlagsNZ (s.reg ra - imm.signExtend 16) t.flags ∧
      t.flags.n = (s.reg ra - imm.signExtend 16).getLsbD 15)
end

