-- ==== Sys2Proof/Laws/Assembler.lean ====
section
/-! SUPPORT. For each operation of hand assembly, what it does once and for all: when it answers, and with what. -/

namespace Sys2Proof.Machine

open Sys2Proof

/-! ### Names (30_encoding.md R114) -/

/-- A name that is found is listed. -/
theorem findNamed_mem {α : Type} {name : Token} {x : α} :
    ∀ {l : List (Token × α)}, findNamed name l = some x → (name, x) ∈ l
  | [], h => by simp [findNamed] at h
  | (n, y) :: rest, h => by
    unfold findNamed at h
    split at h
    · next hn => simp_all
    · exact List.mem_cons_of_mem _ (findNamed_mem h)

/-- A definition gives its name the register. -/
@[simp] theorem findNamed_addDefine (name : Token) (r : Reg) (d : List (Token × Reg)) :
    findNamed name (addDefine name r d) = some r := by
  simp [addDefine, findNamed]

/-- Only one name of a register is valid at a time: after a definition no other name stands for its register. -/
theorem addDefine_only_name {n name : Token} {r : Reg} {d : List (Token × Reg)}
    (h : findNamed n (addDefine name r d) = some r) : n = name := by
  have hm := findNamed_mem h
  simp only [addDefine, List.mem_cons, Prod.mk.injEq, List.mem_filter, ne_eq, not_true_eq_false, decide_false,
    Bool.and_false, Bool.false_eq_true, and_false, or_false] at hm
  exact hm.1

/-! ### Operands (30_encoding.md R93, R95, R113) -/

/-- When an immediate is accepted, and its field. -/
theorem parseField_ok {width : Nat} {tooLarge : Token → AsmError} {t : Token} {x : BitVec width} :
    parseField width tooLarge t = .ok x ↔
      ∃ n, parseNumber t = some n ∧ -(2 ^ (width - 1) : Int) ≤ n ∧ n < 2 ^ width ∧ x = BitVec.ofInt width n := by
  unfold parseField
  split
  · next n h =>
    constructor
    · intro hh
      split at hh
      · next hb => exact ⟨n, h, hb.1, hb.2, by simpa using hh.symm⟩
      · simp at hh
    · rintro ⟨m, hm, h1, h2, rfl⟩
      obtain rfl : n = m := by simpa [h] using hm
      rw [if_pos ⟨h1, h2⟩]
  · next h => simp [h]

/-- When a shift count is accepted. -/
theorem parseCount_ok {t : Token} {n : Nat} : parseCount t = .ok n ↔ parseNumber t = some (n : Int) ∧ n < 16 := by
  unfold parseCount
  split
  · next m h =>
    constructor
    · intro hh
      split at hh
      · simp only [Except.ok.injEq] at hh
        exact ⟨by rw [h]; congr; omega, by omega⟩
      · simp at hh
    · rintro ⟨hm, hn⟩
      obtain rfl : m = n := by simpa [h] using hm
      rw [if_pos (by omega), Int.toNat_natCast]
  · next h => simp [h]

/-- When a label is accepted as the destination of a branch, and the offset it encodes. -/
theorem parseLabel_ok {labels : List (Token × Nat)} {isr : Option IsrRange} {address : Nat} {t : Token} {x : BitVec 8} :
    parseLabel labels isr address t = .ok x ↔
      ∃ target, findNamed t labels = some target ∧ (insideIsr isr target = true → insideIsr isr address = true) ∧
        -128 ≤ (target : Int) - address ∧ (target : Int) - address ≤ 127 ∧
        x = BitVec.ofInt 8 ((target : Int) - address) := by
  unfold parseLabel
  split
  · next h => simp [h]
  · next k h =>
    constructor
    · intro hh
      split at hh
      · simp at hh
      · next hi =>
        split at hh
        · next hb => exact ⟨k, h, by simpa using hi, hb.1, hb.2, by simpa using hh.symm⟩
        · simp at hh
    · rintro ⟨m, hm, hi, h1, h2, rfl⟩
      obtain rfl : k = m := by simpa [h] using hm
      rw [if_neg (by simpa using hi), if_pos ⟨h1, h2⟩]

/-! ### Lines and the whole text (30_encoding.md R112, R119) -/

/-- A line that builds an instruction has the operands its syntax line asks for. -/
theorem buildInstr_operands {labels : List (Token × Nat)} {isr : Option IsrRange} {form : SyntaxForm} {l : AsmLine}
    {i : Instr} (h : buildInstr labels isr form l = .ok i) : l.operands.length = operandCount form := by
  unfold buildInstr at h
  split at h
  · simp at h
  · split at h
    · simp at h
    · omega

/-- Every error an unknown mnemonic can be (30_encoding.md R117). -/
theorem unknownMnemonicError_cases (m : Token) :
    (m.head? = some 'B' ∧ unknownMnemonicError m = .unknownBranchCondition m) ∨
    (m.head? ≠ some 'B' ∧ unknownMnemonicError m = .unknownMnemonic m) ∨
    (m.head? ≠ some 'B' ∧ m ≠ shownUnknownMnemonic ∧ unknownMnemonicError m = .unrecognisedMnemonic m) := by
  unfold unknownMnemonicError
  split
  · next h => exact .inl ⟨h, rfl⟩
  · next h =>
    split
    · next h5 => exact .inr (.inr ⟨h, h5.1, rfl⟩)
    · exact .inr (.inl ⟨h, rfl⟩)

/-- A message has the number and the wording of its error. -/
@[simp] theorem AsmFailure.message_number (source : List String) (f : AsmFailure) :
    (f.message source).number = f.error.number := rfl
@[simp] theorem AsmFailure.message_wording (source : List String) (f : AsmFailure) :
    (f.message source).wording = f.error.wording := rfl

/-- The line a message shows, number and text: the file's, or the pre-processed list's, which ERROR1 never shows. -/
theorem AsmFailure.message_line_cases (source : List String) (f : AsmFailure) :
    ((f.message source).line = .file f.line ∧
      (f.message source).text = Config.displayedText (source.getD (f.line - 1) "")) ∨
    (f.error.number ≠ some 1 ∧ (f.message source).line = .preprocessed (Config.preprocessedLine source f.line) ∧
      (f.message source).text = Config.preprocessedText source f.line) := by
  unfold AsmFailure.message AsmFailure.lineNumber AsmFailure.lineText
  cases h : f.showsPreprocessed source with
  | false => exact .inl ⟨rfl, rfl⟩
  | true =>
    refine .inr ⟨?_, rfl, rfl⟩
    simp only [AsmFailure.showsPreprocessed, Bool.and_eq_true, decide_eq_true_eq] at h
    exact h.1

/-- When a line is an instruction: its mnemonic is listed and the syntax of that mnemonic builds it. -/
theorem assembleLine_ok {labels : List (Token × Nat)} {isr : Option IsrRange} {l : AsmLine} {i : Instr} :
    assembleLine labels isr l = .ok i ↔ l.mnemonic ≠ "NOP".toList ∧
      ∃ form, findNamed l.mnemonic (syntaxTable.map (fun p => (p.1.toList, p.2))) = some form ∧
        buildInstr labels isr form l = .ok i := by
  unfold assembleLine
  split
  · next h => exact ⟨fun hh => by simp at hh, fun hh => absurd h hh.1⟩
  · next h =>
    split
    · next form hf => exact ⟨fun hh => ⟨h, form, hf, hh⟩, fun ⟨_, g, hg, hh⟩ => by
        obtain rfl : form = g := by rw [hf] at hg; exact Option.some.inj hg
        exact hh⟩
    · next hf => exact ⟨fun hh => by simp at hh, fun ⟨_, g, hg, _⟩ => by rw [hf] at hg; cases hg⟩

/-- The lines assemble exactly when every line does, each to its own instruction. -/
theorem assembleLines_ok {labels : List (Token × Nat)} {isr : Option IsrRange} {ls : List AsmLine} {is : List Instr} :
    assembleLines labels isr ls = .ok is ↔ List.Forall₂ (fun l i => assembleLine labels isr l = .ok i) ls is := by
  induction ls generalizing is with
  | nil => simp [assembleLines, eq_comm]
  | cons l ls ih =>
    unfold assembleLines
    rw [List.forall₂_cons_left_iff]
    split
    · next e h => simp [h]
    · next i h =>
      split
      · next e he => simp [← ih, he]
      · next js hj =>
        constructor
        · intro hh
          cases hh
          exact ⟨i, js, h, ih.mp hj, rfl⟩
        · rintro ⟨b, u, hb, hu, rfl⟩
          rw [h] at hb
          rw [← ih, hj] at hu
          cases hb
          cases hu
          rfl

/-- When the checks on the whole text pass. -/
theorem checkSource_ok {source : List String} {isr : Option IsrRange} :
    checkSource source = .ok isr ↔ checkLines (sourceLines source) [] = .ok () ∧
      isrRange (sourceLines source) (programLines source) = .ok isr ∧
      checkSetup isr (sourceLines source) (programLines source) = .ok () := by
  unfold checkSource
  split
  · next e h => simp [h]
  · next h =>
    split
    · next e he => simp [he]
    · next r hr =>
      split
      · next e hs => simp [h, hr]; rintro rfl; simp [hs]
      · next hs => simp [h, hr]; rintro rfl; simp [hs]

/-- When a source text has an image, and which. -/
theorem assemble_ok {source : List String} {image : List Word} :
    assemble source = .ok image ↔ ∃ isr is, checkSource source = .ok isr ∧
      assembleLines (labelTable (sourceLines source) 0) isr (programLines source) = .ok is ∧ image = is.map encode := by
  unfold assemble assembleInstrs
  split
  · next e h =>
    split at h
    · next e' hc => simp [hc]
    · next isr hc => simp [hc, h]
  · next is h =>
    split at h
    · simp at h
    · next isr hc => simp [hc, h, eq_comm]

end Sys2Proof.Machine
end

