-- ==== Sys2Proof/Laws/Decode.lean ====
section
/-! SUPPORT. Reading the fields of a word built by a format gives what was put there (30_encoding.md R81 to R89). -/

namespace Sys2Proof

@[simp] theorem regOfBits_bitsOfReg (r : Reg) : regOfBits (bitsOfReg r) = r := by
  cases r <;> rfl

theorem bitsOfReg_regOfBits (b : BitVec 3) : bitsOfReg (regOfBits b) = b := by
  revert b; decide

/-! ### `formatA1` -/

@[simp] theorem formatA1_opcode (op : BitVec 5) (d a b : BitVec 3) :
    opcodeField (formatA1 op d a b) = op := by
  apply BitVec.eq_of_getLsbD_eq
  intro i hi
  simp only [opcodeField, formatA1, BitVec.getLsbD_extractLsb', BitVec.getLsbD_append]
  interval_cases i
  all_goals simp

@[simp] theorem formatA1_rd (op : BitVec 5) (d a b : BitVec 3) :
    (formatA1 op d a b).extractLsb' 8 3 = d := by
  apply BitVec.eq_of_getLsbD_eq
  intro i hi
  simp only [formatA1, BitVec.getLsbD_extractLsb', BitVec.getLsbD_append]
  interval_cases i
  all_goals simp

@[simp] theorem formatA1_ra (op : BitVec 5) (d a b : BitVec 3) :
    raBits (formatA1 op d a b) = a := by
  apply BitVec.eq_of_getLsbD_eq
  intro i hi
  simp only [raBits, formatA1, BitVec.getLsbD_extractLsb', BitVec.getLsbD_append]
  interval_cases i
  all_goals simp

@[simp] theorem formatA1_rb (op : BitVec 5) (d a b : BitVec 3) :
    (formatA1 op d a b).extractLsb' 2 3 = b := by
  apply BitVec.eq_of_getLsbD_eq
  intro i hi
  simp only [formatA1, BitVec.getLsbD_extractLsb', BitVec.getLsbD_append]
  interval_cases i
  all_goals simp

/-! ### `formatA2` -/

@[simp] theorem formatA2_opcode (op : BitVec 5) (d a : BitVec 3) (imm : BitVec 5) :
    opcodeField (formatA2 op d a imm) = op := by
  apply BitVec.eq_of_getLsbD_eq
  intro i hi
  simp only [opcodeField, formatA2, BitVec.getLsbD_extractLsb', BitVec.getLsbD_append]
  interval_cases i
  all_goals simp

@[simp] theorem formatA2_rd (op : BitVec 5) (d a : BitVec 3) (imm : BitVec 5) :
    (formatA2 op d a imm).extractLsb' 8 3 = d := by
  apply BitVec.eq_of_getLsbD_eq
  intro i hi
  simp only [formatA2, BitVec.getLsbD_extractLsb', BitVec.getLsbD_append]
  interval_cases i
  all_goals simp

@[simp] theorem formatA2_ra (op : BitVec 5) (d a : BitVec 3) (imm : BitVec 5) :
    raBits (formatA2 op d a imm) = a := by
  apply BitVec.eq_of_getLsbD_eq
  intro i hi
  simp only [raBits, formatA2, BitVec.getLsbD_extractLsb', BitVec.getLsbD_append]
  interval_cases i
  all_goals simp

@[simp] theorem formatA2_imm5 (op : BitVec 5) (d a : BitVec 3) (imm : BitVec 5) :
    imm5Field (formatA2 op d a imm) = imm := by
  apply BitVec.eq_of_getLsbD_eq
  intro i hi
  simp only [imm5Field, formatA2, BitVec.getLsbD_extractLsb', BitVec.getLsbD_append]
  interval_cases i
  all_goals simp

/-! ### `formatShift` -/

@[simp] theorem formatShift_opcode (op : BitVec 5) (d a : BitVec 3) (count : Nat) :
    opcodeField (formatShift op d a count) = op := by
  apply BitVec.eq_of_getLsbD_eq
  intro i hi
  simp only [opcodeField, formatShift, BitVec.getLsbD_extractLsb', BitVec.getLsbD_append]
  interval_cases i
  all_goals simp

@[simp] theorem formatShift_rd (op : BitVec 5) (d a : BitVec 3) (count : Nat) :
    (formatShift op d a count).extractLsb' 8 3 = d := by
  apply BitVec.eq_of_getLsbD_eq
  intro i hi
  simp only [formatShift, BitVec.getLsbD_extractLsb', BitVec.getLsbD_append]
  interval_cases i
  all_goals simp

@[simp] theorem formatShift_ra (op : BitVec 5) (d a : BitVec 3) (count : Nat) :
    raBits (formatShift op d a count) = a := by
  apply BitVec.eq_of_getLsbD_eq
  intro i hi
  simp only [raBits, formatShift, BitVec.getLsbD_extractLsb', BitVec.getLsbD_append]
  interval_cases i
  all_goals simp

@[simp] theorem formatShift_fixedBit (op : BitVec 5) (d a : BitVec 3) (count : Nat) :
    shiftFixedBit (formatShift op d a count) = 0#1 := by
  apply BitVec.eq_of_getLsbD_eq
  intro i hi
  simp only [shiftFixedBit, formatShift, BitVec.getLsbD_extractLsb', BitVec.getLsbD_append]
  interval_cases i
  all_goals simp

@[simp] theorem formatShift_count (op : BitVec 5) (d a : BitVec 3) (count : Nat) :
    (formatShift op d a count).extractLsb' 0 4 = BitVec.ofNat 4 count := by
  apply BitVec.eq_of_getLsbD_eq
  intro i hi
  simp only [formatShift, BitVec.getLsbD_extractLsb', BitVec.getLsbD_append]
  interval_cases i
  all_goals simp

/-! ### `formatB` -/

@[simp] theorem formatB_opcode (op : BitVec 5) (d : BitVec 3) (imm : BitVec 8) :
    opcodeField (formatB op d imm) = op := by
  apply BitVec.eq_of_getLsbD_eq
  intro i hi
  simp only [opcodeField, formatB, BitVec.getLsbD_extractLsb', BitVec.getLsbD_append]
  interval_cases i
  all_goals simp

@[simp] theorem formatB_rd (op : BitVec 5) (d : BitVec 3) (imm : BitVec 8) :
    (formatB op d imm).extractLsb' 8 3 = d := by
  apply BitVec.eq_of_getLsbD_eq
  intro i hi
  simp only [formatB, BitVec.getLsbD_extractLsb', BitVec.getLsbD_append]
  interval_cases i
  all_goals simp

@[simp] theorem formatB_imm8 (op : BitVec 5) (d : BitVec 3) (imm : BitVec 8) :
    imm8Field (formatB op d imm) = imm := by
  apply BitVec.eq_of_getLsbD_eq
  intro i hi
  simp only [imm8Field, formatB, BitVec.getLsbD_extractLsb', BitVec.getLsbD_append]
  interval_cases i
  all_goals simp

/-! ### `formatF` -/

@[simp] theorem formatF_opcode (c : BitVec 3) :
    opcodeField (formatF c) = 0b11001#5 := by
  apply BitVec.eq_of_getLsbD_eq
  intro i hi
  simp only [opcodeField, formatF, BitVec.getLsbD_extractLsb', BitVec.getLsbD_append]
  interval_cases i
  all_goals simp

@[simp] theorem formatF_rd (c : BitVec 3) :
    (formatF c).extractLsb' 8 3 = c := by
  apply BitVec.eq_of_getLsbD_eq
  intro i hi
  simp only [formatF, BitVec.getLsbD_extractLsb', BitVec.getLsbD_append]
  interval_cases i
  all_goals simp

@[simp] theorem formatF_ra (c : BitVec 3) :
    raBits (formatF c) = 0b111#3 := by
  apply BitVec.eq_of_getLsbD_eq
  intro i hi
  simp only [raBits, formatF, BitVec.getLsbD_extractLsb', BitVec.getLsbD_append]
  interval_cases i
  all_goals simp

/-! ### `formatE` -/

@[simp] theorem formatE_gpr_opcode (op : BitVec 5) (r : Reg) :
    opcodeField (formatE op (.gpr r)) = op := by
  apply BitVec.eq_of_getLsbD_eq
  intro i hi
  simp only [opcodeField, formatE, BitVec.getLsbD_extractLsb', BitVec.getLsbD_append]
  interval_cases i
  all_goals simp

@[simp] theorem formatE_gpr_link (op : BitVec 5) (r : Reg) :
    linkBit (formatE op (.gpr r)) = 0#1 := by
  apply BitVec.eq_of_getLsbD_eq
  intro i hi
  simp only [linkBit, formatE, BitVec.getLsbD_extractLsb', BitVec.getLsbD_append]
  interval_cases i
  all_goals simp

@[simp] theorem formatE_gpr_fixed (op : BitVec 5) (r : Reg) :
    imm5Field (formatE op (.gpr r)) = 0b00001#5 := by
  apply BitVec.eq_of_getLsbD_eq
  intro i hi
  simp only [imm5Field, formatE, BitVec.getLsbD_extractLsb', BitVec.getLsbD_append]
  interval_cases i
  all_goals simp

@[simp] theorem formatE_gpr_ra (op : BitVec 5) (r : Reg) :
    raBits (formatE op (.gpr r)) = bitsOfReg r := by
  apply BitVec.eq_of_getLsbD_eq
  intro i hi
  simp only [raBits, formatE, BitVec.getLsbD_extractLsb', BitVec.getLsbD_append]
  interval_cases i
  all_goals simp

@[simp] theorem formatE_lr_opcode (op : BitVec 5) :
    opcodeField (formatE op .lr) = op := by
  apply BitVec.eq_of_getLsbD_eq
  intro i hi
  simp only [opcodeField, formatE, BitVec.getLsbD_extractLsb', BitVec.getLsbD_append]
  interval_cases i
  all_goals simp

@[simp] theorem formatE_lr_link (op : BitVec 5) :
    linkBit (formatE op .lr) = 1#1 := by
  apply BitVec.eq_of_getLsbD_eq
  intro i hi
  simp only [linkBit, formatE, BitVec.getLsbD_extractLsb', BitVec.getLsbD_append]
  interval_cases i
  all_goals simp

@[simp] theorem formatE_lr_fixed (op : BitVec 5) :
    imm5Field (formatE op .lr) = 0b00001#5 := by
  apply BitVec.eq_of_getLsbD_eq
  intro i hi
  simp only [imm5Field, formatE, BitVec.getLsbD_extractLsb', BitVec.getLsbD_append]
  interval_cases i
  all_goals simp

@[simp] theorem formatE_lr_ra (op : BitVec 5) :
    raBits (formatE op .lr) = 0#3 := by
  apply BitVec.eq_of_getLsbD_eq
  intro i hi
  simp only [raBits, formatE, BitVec.getLsbD_extractLsb', BitVec.getLsbD_append]
  interval_cases i
  all_goals simp

end Sys2Proof
end

