-- ==== Sys2Proof/Laws/Memory.lean ====
section
/-! SUPPORT. Laws of the word-cell memory: what is read after a write, and that every operation keeps the canonical
form. -/

namespace Sys2Proof.Machine

open Sys2Proof

theorem Memory.lookup_insert_same (m : Memory) (a : Nat) (v : Word) : (m.insert a v).lookup a = some v := by
  induction m with
  | nil => simp [Memory.insert, Memory.lookup]
  | cons c rest ih =>
    obtain ⟨k, w⟩ := c
    simp only [Memory.insert]
    split
    · simp [Memory.lookup]
    · split
      · simp [Memory.lookup]
      · rename_i h1 h2
        simp [Memory.lookup, Ne.symm h2, ih]

theorem Memory.lookup_insert_ne (m : Memory) (a b : Nat) (v : Word) (h : b ≠ a) :
    (m.insert a v).lookup b = m.lookup b := by
  induction m with
  | nil => simp [Memory.insert, Memory.lookup, Ne.symm h]
  | cons c rest ih =>
    obtain ⟨k, w⟩ := c
    simp only [Memory.insert]
    split
    · simp [Memory.lookup, Ne.symm h]
    · split
      · rename_i h1 h2
        subst h2
        simp [Memory.lookup, Ne.symm h]
      · simp [Memory.lookup, ih]

@[simp] theorem Memory.read_write_same (m : Memory) (a v : Word) : (m.write a v).read a = some v :=
  Memory.lookup_insert_same _ _ _

theorem Memory.read_write_ne (m : Memory) (a b v : Word) (h : b ≠ a) : (m.write a v).read b = m.read b :=
  Memory.lookup_insert_ne _ _ _ _ (fun e => h (BitVec.eq_of_toNat_eq e))

theorem Memory.risingFrom_weaken (m : Memory) (low low' high : Nat) (hl : low' ≤ low)
    (h : m.risingFrom low high = true) : m.risingFrom low' high = true := by
  cases m with
  | nil => rfl
  | cons c rest =>
    obtain ⟨k, w⟩ := c
    simp only [Memory.risingFrom, Bool.and_eq_true, decide_eq_true_eq] at h ⊢
    exact ⟨⟨by omega, h.1.2⟩, h.2⟩

theorem Memory.risingFrom_insert (m : Memory) (low high a : Nat) (v : Word) (h : m.risingFrom low high = true)
    (ha : low ≤ a) (hb : a < high) : (m.insert a v).risingFrom low high = true := by
  induction m generalizing low with
  | nil => simp [Memory.insert, Memory.risingFrom, ha, hb]
  | cons c rest ih =>
    obtain ⟨k, w⟩ := c
    simp only [Memory.risingFrom, Bool.and_eq_true, decide_eq_true_eq] at h
    simp only [Memory.insert]
    split
    · simp only [Memory.risingFrom, Bool.and_eq_true, decide_eq_true_eq]
      exact ⟨⟨ha, hb⟩, ⟨by omega, h.1.2⟩, h.2⟩
    · split
      · rename_i h1 h2
        subst h2
        simp only [Memory.risingFrom, Bool.and_eq_true, decide_eq_true_eq]
        exact ⟨⟨ha, hb⟩, h.2⟩
      · simp only [Memory.risingFrom, Bool.and_eq_true, decide_eq_true_eq]
        exact ⟨h.1, ih (k + 1) h.2 (by omega)⟩

/-- A write to main memory keeps the canonical form. -/
theorem Memory.wf_write (m : Memory) (a v : Word) (h : m.wf = true) (ha : a.toNat < mainMemoryWords) :
    (m.write a v).wf = true :=
  Memory.risingFrom_insert m 0 mainMemoryWords a.toNat v h (Nat.zero_le _) ha

/-- Loading an image that fits into main memory keeps the canonical form. -/
theorem Memory.wf_load (m : Memory) (base : Nat) (image : List Word) (h : m.wf = true)
    (hb : base + image.length ≤ mainMemoryWords) : (m.load base image).wf = true := by
  induction image generalizing m base with
  | nil => exact h
  | cons w ws ih =>
    simp only [List.length_cons] at hb
    exact ih (m.insert base w) (base + 1)
      (Memory.risingFrom_insert m 0 mainMemoryWords base w h (Nat.zero_le _) (by omega)) (by omega)

/-- A canonical memory lists nothing below the bound it rises from. -/
theorem Memory.lookup_below (m : Memory) (low high a : Nat) (h : m.risingFrom low high = true) (ha : a < low) :
    m.lookup a = none := by
  induction m generalizing low with
  | nil => rfl
  | cons c rest ih =>
    obtain ⟨k, w⟩ := c
    simp only [Memory.risingFrom, Bool.and_eq_true, decide_eq_true_eq] at h
    have hk : k ≠ a := by omega
    simp [Memory.lookup, hk, ih (k + 1) h.2 (by omega)]

/-- Two canonical memories that read the same are the same list. -/
theorem Memory.eq_of_lookup (m m' : Memory) (low high : Nat) (h : m.risingFrom low high = true)
    (h' : m'.risingFrom low high = true) (hr : ∀ a, m.lookup a = m'.lookup a) : m = m' := by
  induction m generalizing m' low with
  | nil =>
    cases m' with
    | nil => rfl
    | cons c rest =>
      obtain ⟨k, w⟩ := c
      have := hr k
      simp [Memory.lookup] at this
  | cons c rest ih =>
    obtain ⟨k, w⟩ := c
    cases m' with
    | nil =>
      have := hr k
      simp [Memory.lookup] at this
    | cons c' rest' =>
      obtain ⟨k', w'⟩ := c'
      simp only [Memory.risingFrom, Bool.and_eq_true, decide_eq_true_eq] at h h'
      have hk : k = k' := by
        rcases Nat.lt_trichotomy k k' with hlt | heq | hgt
        · have h1 := hr k
          have h2 : k' ≠ k := by omega
          simp [Memory.lookup, h2, Memory.lookup_below rest' (k' + 1) high k h'.2 (by omega)] at h1
        · exact heq
        · have h1 := hr k'
          have h2 : k ≠ k' := by omega
          simp [Memory.lookup, h2, Memory.lookup_below rest (k + 1) high k' h.2 (by omega)] at h1
      subst hk
      have hw : w = w' := by simpa [Memory.lookup] using hr k
      subst hw
      have hrest : rest = rest' := by
        refine ih rest' (k + 1) h.2 h'.2 (fun a => ?_)
        by_cases hak : k = a
        · subst hak
          rw [Memory.lookup_below rest (k + 1) high k h.2 (by omega),
            Memory.lookup_below rest' (k + 1) high k h'.2 (by omega)]
        · simpa [Memory.lookup, hak] using hr a
      rw [hrest]

end Sys2Proof.Machine
end

