-- ==== Sys2Proof/Laws/State.lean ====
section
/-! SUPPORT. One lemma per field per update of the state, and reading registers after writing them. -/

namespace Sys2Proof.Machine

open Sys2Proof

/-! ### Registers -/

@[simp] theorem Regs.get_set_same (rs : Regs) (r : Reg) (v : Word) : (rs.set r v).get r = v := by
  cases r <;> rfl

theorem Regs.get_set_ne (rs : Regs) (r q : Reg) (v : Word) (h : q ≠ r) : (rs.set r v).get q = rs.get q := by
  cases r <;> cases q <;> first | rfl | exact absurd rfl h

theorem Regs.get_set (rs : Regs) (r q : Reg) (v : Word) :
    (rs.set r v).get q = if q = r then v else rs.get q := by
  by_cases h : q = r
  · subst h; simp
  · simp [h, Regs.get_set_ne rs r q v h]

theorem Regs.ext_get (a b : Regs) (h : ∀ r, a.get r = b.get r) : a = b := by
  cases a; cases b
  simp only [Regs.mk.injEq]
  exact ⟨h .r0, h .r1, h .r2, h .r3, h .r4, h .r5, h .r6, h .r7⟩

@[simp] theorem State.reg_setReg_same (s : State) (r : Reg) (v : Word) : (s.setReg r v).reg r = v :=
  Regs.get_set_same _ _ _

theorem State.reg_setReg (s : State) (r q : Reg) (v : Word) :
    (s.setReg r v).reg q = if q = r then v else s.reg q :=
  Regs.get_set _ _ _ _

/-! ### `setReg` -/

@[simp] theorem State.setReg_regs (s : State) (r : Reg) (v : Word) : (s.setReg r v).regs = s.regs.set r v := rfl
@[simp] theorem State.setReg_lr (s : State) (r : Reg) (v : Word) : (s.setReg r v).lr = s.lr := rfl
@[simp] theorem State.setReg_pc (s : State) (r : Reg) (v : Word) : (s.setReg r v).pc = s.pc := rfl
@[simp] theorem State.setReg_ir (s : State) (r : Reg) (v : Word) : (s.setReg r v).ir = s.ir := rfl
@[simp] theorem State.setReg_aluOut (s : State) (r : Reg) (v : Word) : (s.setReg r v).aluOut = s.aluOut := rfl
@[simp] theorem State.setReg_flags (s : State) (r : Reg) (v : Word) : (s.setReg r v).flags = s.flags := rfl
@[simp] theorem State.setReg_ie (s : State) (r : Reg) (v : Word) : (s.setReg r v).ie = s.ie := rfl
@[simp] theorem State.setReg_mem (s : State) (r : Reg) (v : Word) : (s.setReg r v).mem = s.mem := rfl
@[simp] theorem State.setReg_dev (s : State) (r : Reg) (v : Word) : (s.setReg r v).dev = s.dev := rfl
@[simp] theorem State.setReg_isrVector (s : State) (r : Reg) (v : Word) : (s.setReg r v).isrVector = s.isrVector := rfl
@[simp] theorem State.setReg_subCarry (s : State) (r : Reg) (v : Word) : (s.setReg r v).subCarry = s.subCarry := rfl
@[simp] theorem State.setReg_boundary (s : State) (r : Reg) (v : Word) : (s.setReg r v).boundary = s.boundary := rfl
@[simp] theorem State.setReg_draws (s : State) (r : Reg) (v : Word) : (s.setReg r v).draws = s.draws := rfl

/-! ### `setLr` -/

@[simp] theorem State.setLr_regs (s : State) (v : Word) : (s.setLr v).regs = s.regs := rfl
@[simp] theorem State.setLr_lr (s : State) (v : Word) : (s.setLr v).lr = v := rfl
@[simp] theorem State.setLr_pc (s : State) (v : Word) : (s.setLr v).pc = s.pc := rfl
@[simp] theorem State.setLr_ir (s : State) (v : Word) : (s.setLr v).ir = s.ir := rfl
@[simp] theorem State.setLr_aluOut (s : State) (v : Word) : (s.setLr v).aluOut = s.aluOut := rfl
@[simp] theorem State.setLr_flags (s : State) (v : Word) : (s.setLr v).flags = s.flags := rfl
@[simp] theorem State.setLr_ie (s : State) (v : Word) : (s.setLr v).ie = s.ie := rfl
@[simp] theorem State.setLr_mem (s : State) (v : Word) : (s.setLr v).mem = s.mem := rfl
@[simp] theorem State.setLr_dev (s : State) (v : Word) : (s.setLr v).dev = s.dev := rfl
@[simp] theorem State.setLr_isrVector (s : State) (v : Word) : (s.setLr v).isrVector = s.isrVector := rfl
@[simp] theorem State.setLr_subCarry (s : State) (v : Word) : (s.setLr v).subCarry = s.subCarry := rfl
@[simp] theorem State.setLr_boundary (s : State) (v : Word) : (s.setLr v).boundary = s.boundary := rfl
@[simp] theorem State.setLr_draws (s : State) (v : Word) : (s.setLr v).draws = s.draws := rfl
@[simp] theorem State.setLr_reg (s : State) (v : Word) (q : Reg) : (s.setLr v).reg q = s.reg q := rfl

/-! ### `setPc` -/

@[simp] theorem State.setPc_regs (s : State) (v : Word) : (s.setPc v).regs = s.regs := rfl
@[simp] theorem State.setPc_lr (s : State) (v : Word) : (s.setPc v).lr = s.lr := rfl
@[simp] theorem State.setPc_pc (s : State) (v : Word) : (s.setPc v).pc = v := rfl
@[simp] theorem State.setPc_ir (s : State) (v : Word) : (s.setPc v).ir = s.ir := rfl
@[simp] theorem State.setPc_aluOut (s : State) (v : Word) : (s.setPc v).aluOut = s.aluOut := rfl
@[simp] theorem State.setPc_flags (s : State) (v : Word) : (s.setPc v).flags = s.flags := rfl
@[simp] theorem State.setPc_ie (s : State) (v : Word) : (s.setPc v).ie = s.ie := rfl
@[simp] theorem State.setPc_mem (s : State) (v : Word) : (s.setPc v).mem = s.mem := rfl
@[simp] theorem State.setPc_dev (s : State) (v : Word) : (s.setPc v).dev = s.dev := rfl
@[simp] theorem State.setPc_isrVector (s : State) (v : Word) : (s.setPc v).isrVector = s.isrVector := rfl
@[simp] theorem State.setPc_subCarry (s : State) (v : Word) : (s.setPc v).subCarry = s.subCarry := rfl
@[simp] theorem State.setPc_boundary (s : State) (v : Word) : (s.setPc v).boundary = s.boundary := rfl
@[simp] theorem State.setPc_draws (s : State) (v : Word) : (s.setPc v).draws = s.draws := rfl
@[simp] theorem State.setPc_reg (s : State) (v : Word) (q : Reg) : (s.setPc v).reg q = s.reg q := rfl

/-! ### `setAluOut` -/

@[simp] theorem State.setAluOut_regs (s : State) (v : Word) : (s.setAluOut v).regs = s.regs := rfl
@[simp] theorem State.setAluOut_lr (s : State) (v : Word) : (s.setAluOut v).lr = s.lr := rfl
@[simp] theorem State.setAluOut_pc (s : State) (v : Word) : (s.setAluOut v).pc = s.pc := rfl
@[simp] theorem State.setAluOut_ir (s : State) (v : Word) : (s.setAluOut v).ir = s.ir := rfl
@[simp] theorem State.setAluOut_aluOut (s : State) (v : Word) : (s.setAluOut v).aluOut = v := rfl
@[simp] theorem State.setAluOut_flags (s : State) (v : Word) : (s.setAluOut v).flags = s.flags := rfl
@[simp] theorem State.setAluOut_ie (s : State) (v : Word) : (s.setAluOut v).ie = s.ie := rfl
@[simp] theorem State.setAluOut_mem (s : State) (v : Word) : (s.setAluOut v).mem = s.mem := rfl
@[simp] theorem State.setAluOut_dev (s : State) (v : Word) : (s.setAluOut v).dev = s.dev := rfl
@[simp] theorem State.setAluOut_isrVector (s : State) (v : Word) : (s.setAluOut v).isrVector = s.isrVector := rfl
@[simp] theorem State.setAluOut_subCarry (s : State) (v : Word) : (s.setAluOut v).subCarry = s.subCarry := rfl
@[simp] theorem State.setAluOut_boundary (s : State) (v : Word) : (s.setAluOut v).boundary = s.boundary := rfl
@[simp] theorem State.setAluOut_draws (s : State) (v : Word) : (s.setAluOut v).draws = s.draws := rfl
@[simp] theorem State.setAluOut_reg (s : State) (v : Word) (q : Reg) : (s.setAluOut v).reg q = s.reg q := rfl

/-! ### `setFlags` -/

@[simp] theorem State.setFlags_regs (s : State) (f : Flags) : (s.setFlags f).regs = s.regs := rfl
@[simp] theorem State.setFlags_lr (s : State) (f : Flags) : (s.setFlags f).lr = s.lr := rfl
@[simp] theorem State.setFlags_pc (s : State) (f : Flags) : (s.setFlags f).pc = s.pc := rfl
@[simp] theorem State.setFlags_ir (s : State) (f : Flags) : (s.setFlags f).ir = s.ir := rfl
@[simp] theorem State.setFlags_aluOut (s : State) (f : Flags) : (s.setFlags f).aluOut = s.aluOut := rfl
@[simp] theorem State.setFlags_flags (s : State) (f : Flags) : (s.setFlags f).flags = f := rfl
@[simp] theorem State.setFlags_ie (s : State) (f : Flags) : (s.setFlags f).ie = s.ie := rfl
@[simp] theorem State.setFlags_mem (s : State) (f : Flags) : (s.setFlags f).mem = s.mem := rfl
@[simp] theorem State.setFlags_dev (s : State) (f : Flags) : (s.setFlags f).dev = s.dev := rfl
@[simp] theorem State.setFlags_isrVector (s : State) (f : Flags) : (s.setFlags f).isrVector = s.isrVector := rfl
@[simp] theorem State.setFlags_subCarry (s : State) (f : Flags) : (s.setFlags f).subCarry = s.subCarry := rfl
@[simp] theorem State.setFlags_boundary (s : State) (f : Flags) : (s.setFlags f).boundary = s.boundary := rfl
@[simp] theorem State.setFlags_draws (s : State) (f : Flags) : (s.setFlags f).draws = s.draws := rfl
@[simp] theorem State.setFlags_reg (s : State) (f : Flags) (q : Reg) : (s.setFlags f).reg q = s.reg q := rfl

/-! ### `setIe` -/

@[simp] theorem State.setIe_regs (s : State) (b : Bool) : (s.setIe b).regs = s.regs := rfl
@[simp] theorem State.setIe_lr (s : State) (b : Bool) : (s.setIe b).lr = s.lr := rfl
@[simp] theorem State.setIe_pc (s : State) (b : Bool) : (s.setIe b).pc = s.pc := rfl
@[simp] theorem State.setIe_ir (s : State) (b : Bool) : (s.setIe b).ir = s.ir := rfl
@[simp] theorem State.setIe_aluOut (s : State) (b : Bool) : (s.setIe b).aluOut = s.aluOut := rfl
@[simp] theorem State.setIe_flags (s : State) (b : Bool) : (s.setIe b).flags = s.flags := rfl
@[simp] theorem State.setIe_ie (s : State) (b : Bool) : (s.setIe b).ie = b := rfl
@[simp] theorem State.setIe_mem (s : State) (b : Bool) : (s.setIe b).mem = s.mem := rfl
@[simp] theorem State.setIe_dev (s : State) (b : Bool) : (s.setIe b).dev = s.dev := rfl
@[simp] theorem State.setIe_isrVector (s : State) (b : Bool) : (s.setIe b).isrVector = s.isrVector := rfl
@[simp] theorem State.setIe_subCarry (s : State) (b : Bool) : (s.setIe b).subCarry = s.subCarry := rfl
@[simp] theorem State.setIe_boundary (s : State) (b : Bool) : (s.setIe b).boundary = s.boundary := rfl
@[simp] theorem State.setIe_draws (s : State) (b : Bool) : (s.setIe b).draws = s.draws := rfl
@[simp] theorem State.setIe_reg (s : State) (b : Bool) (q : Reg) : (s.setIe b).reg q = s.reg q := rfl

/-! ### `advance` -/

@[simp] theorem State.advance_regs (s : State) : (s.advance).regs = s.regs := rfl
@[simp] theorem State.advance_lr (s : State) : (s.advance).lr = s.lr := rfl
@[simp] theorem State.advance_pc (s : State) : (s.advance).pc = nextAddress s.pc := rfl
@[simp] theorem State.advance_ir (s : State) : (s.advance).ir = s.ir := rfl
@[simp] theorem State.advance_aluOut (s : State) : (s.advance).aluOut = s.aluOut := rfl
@[simp] theorem State.advance_flags (s : State) : (s.advance).flags = s.flags := rfl
@[simp] theorem State.advance_ie (s : State) : (s.advance).ie = s.ie := rfl
@[simp] theorem State.advance_mem (s : State) : (s.advance).mem = s.mem := rfl
@[simp] theorem State.advance_dev (s : State) : (s.advance).dev = s.dev := rfl
@[simp] theorem State.advance_isrVector (s : State) : (s.advance).isrVector = s.isrVector := rfl
@[simp] theorem State.advance_subCarry (s : State) : (s.advance).subCarry = s.subCarry := rfl
@[simp] theorem State.advance_boundary (s : State) : (s.advance).boundary = s.boundary := rfl
@[simp] theorem State.advance_draws (s : State) : (s.advance).draws = s.draws := rfl
@[simp] theorem State.advance_reg (s : State) (q : Reg) : (s.advance).reg q = s.reg q := rfl

/-! ### `spendDraws` -/

@[simp] theorem State.spendDraws_regs (s : State) : (s.spendDraws).regs = s.regs := rfl
@[simp] theorem State.spendDraws_lr (s : State) : (s.spendDraws).lr = s.lr := rfl
@[simp] theorem State.spendDraws_pc (s : State) : (s.spendDraws).pc = s.pc := rfl
@[simp] theorem State.spendDraws_ir (s : State) : (s.spendDraws).ir = s.ir := rfl
@[simp] theorem State.spendDraws_aluOut (s : State) : (s.spendDraws).aluOut = s.aluOut := rfl
@[simp] theorem State.spendDraws_flags (s : State) : (s.spendDraws).flags = s.flags := rfl
@[simp] theorem State.spendDraws_ie (s : State) : (s.spendDraws).ie = s.ie := rfl
@[simp] theorem State.spendDraws_mem (s : State) : (s.spendDraws).mem = s.mem := rfl
@[simp] theorem State.spendDraws_dev (s : State) : (s.spendDraws).dev = s.dev := rfl
@[simp] theorem State.spendDraws_isrVector (s : State) : (s.spendDraws).isrVector = s.isrVector := rfl
@[simp] theorem State.spendDraws_subCarry (s : State) : (s.spendDraws).subCarry = s.subCarry := rfl
@[simp] theorem State.spendDraws_boundary (s : State) : (s.spendDraws).boundary = s.boundary := rfl
@[simp] theorem State.spendDraws_draws (s : State) : (s.spendDraws).draws = s.draws + 2 := rfl
@[simp] theorem State.spendDraws_reg (s : State) (q : Reg) : (s.spendDraws).reg q = s.reg q := rfl

/-! ### `tick` -/

@[simp] theorem State.tick_regs (s : State) : (s.tick).regs = s.regs := rfl
@[simp] theorem State.tick_lr (s : State) : (s.tick).lr = s.lr := rfl
@[simp] theorem State.tick_pc (s : State) : (s.tick).pc = s.pc := rfl
@[simp] theorem State.tick_ir (s : State) : (s.tick).ir = s.ir := rfl
@[simp] theorem State.tick_aluOut (s : State) : (s.tick).aluOut = s.aluOut := rfl
@[simp] theorem State.tick_flags (s : State) : (s.tick).flags = s.flags := rfl
@[simp] theorem State.tick_ie (s : State) : (s.tick).ie = s.ie := rfl
@[simp] theorem State.tick_mem (s : State) : (s.tick).mem = s.mem := rfl
@[simp] theorem State.tick_dev (s : State) : (s.tick).dev = s.dev.tick s.boundary := rfl
@[simp] theorem State.tick_isrVector (s : State) : (s.tick).isrVector = s.isrVector := rfl
@[simp] theorem State.tick_subCarry (s : State) : (s.tick).subCarry = s.subCarry := rfl
@[simp] theorem State.tick_boundary (s : State) : (s.tick).boundary = s.boundary + 1 := rfl
@[simp] theorem State.tick_draws (s : State) : (s.tick).draws = s.draws := rfl
@[simp] theorem State.tick_reg (s : State) (q : Reg) : (s.tick).reg q = s.reg q := rfl

/-! ### `tick` on the devices -/

theorem Device.receive_fold_switches (l : List Arrival) (d : Device) :
    (l.foldl (fun e x => e.receive x.datum) d).switches = d.switches := by
  induction l generalizing d with
  | nil => rfl
  | cons x l ih => simp only [List.foldl_cons, ih]; rfl

theorem Device.receive_fold_leds (l : List Arrival) (d : Device) :
    (l.foldl (fun e x => e.receive x.datum) d).leds = d.leds := by
  induction l generalizing d with
  | nil => rfl
  | cons x l ih => simp only [List.foldl_cons, ih]; rfl

theorem Device.receive_fold_serialIntEnable (l : List Arrival) (d : Device) :
    (l.foldl (fun e x => e.receive x.datum) d).serialIntEnable = d.serialIntEnable := by
  induction l generalizing d with
  | nil => rfl
  | cons x l ih => simp only [List.foldl_cons, ih]; rfl

@[simp] theorem Device.tick_switches (b : Nat) (d : Device) : (d.tick b).switches = d.switches :=
  Device.receive_fold_switches _ _

@[simp] theorem Device.tick_leds (b : Nat) (d : Device) : (d.tick b).leds = d.leds :=
  Device.receive_fold_leds _ _

@[simp] theorem Device.tick_serialIntEnable (b : Nat) (d : Device) : (d.tick b).serialIntEnable = d.serialIntEnable :=
  Device.receive_fold_serialIntEnable _ _

end Sys2Proof.Machine
end

