-- ==== Sys2Proof/Laws/Ops.lean ====
section
/-! SUPPORT. For each shared operation, what it does once and for all: if it answers, then one of these cases. -/

namespace Sys2Proof.Machine

open Sys2Proof

/-- Everything a read can do (20_memory.md R56; 60_exceptions.md R262, R264). -/
theorem memRead_cases {a : Word} {s t : State} {v : Word} (h : memRead a s = .ok (v, t)) :
    (region a = .mainMemory ∧ v = s.mainWord a ∧ t = s) ∨
    (region a = .switches ∧ v = s.dev.switches ∧ t = s) ∨
    (region a = .serialData ∧ v = s.dev.serialData ∧ t = { s with dev := s.dev.markRead }) := by
  unfold memRead at h
  split at h <;> simp only [Except.ok.injEq, Prod.mk.injEq, reduceCtorEq] at h
  all_goals obtain ⟨rfl, rfl⟩ := h
  · exact .inl ⟨by assumption, rfl, rfl⟩
  · exact .inr (.inl ⟨by assumption, rfl, rfl⟩)
  · exact .inr (.inr ⟨by assumption, rfl, rfl⟩)

/-- Everything a write can do (20_memory.md R56; 60_exceptions.md R263, R265). -/
theorem memWrite_cases {a v : Word} {s t : State} (h : memWrite a v s = .ok t) :
    (region a = .mainMemory ∧ t = { s with mem := s.mem.write a v }) ∨
    (region a = .leds ∧ t = { s with dev := { s.dev with leds := v } }) ∨
    (region a = .serialControl ∧ v = serialEnableValue ∧
      t = { s with dev := { s.dev with serialIntEnable := true } }) := by
  unfold memWrite at h
  split at h
  all_goals first
    | (split at h <;> simp_all)
    | simp_all

/-- Everything a fetch can do (20_memory.md R61). -/
theorem fetch_cases {s t : State} {w : Word} (h : fetch s = .ok (w, t)) :
    region s.pc = .mainMemory ∧ s.mem.read s.pc = some w ∧ t = { s with ir := w } := by
  unfold fetch at h
  split at h <;> try (simp at h)
  split at h
  · simp only [Except.ok.injEq, Prod.mk.injEq] at h
    obtain ⟨rfl, rfl⟩ := h
    exact ⟨by assumption, by assumption, rfl⟩
  · simp at h

/-- Everything a push can do (44_stack.md R210). -/
theorem pushWord_cases {v : Word} {s t : State} (h : pushWord v s = .ok t) :
    memWrite (previousAddress s.sp) v (s.setSp (previousAddress s.sp)) = .ok t := h

/-- Everything a pop can do (44_stack.md R210). -/
theorem popWord_cases {s t : State} {v : Word} (h : popWord s = .ok (v, t)) :
    ∃ t₀, memRead s.sp s = .ok (v, t₀) ∧ t = t₀.setSp (nextAddress s.sp) := by
  unfold popWord at h
  split at h
  · rename_i v' t₀ he
    simp only [Except.ok.injEq, Prod.mk.injEq] at h
    obtain ⟨rfl, rfl⟩ := h
    exact ⟨t₀, he, rfl⟩
  · simp at h

/-- What an instruction that stores has done, if it completes. -/
theorem afterStore_next {a : Word} {r : Except Refusal State} {t : State} (h : afterStore a r = .next t) :
    ∃ t₀, r = .ok t₀ ∧ t = (t₀.setAluOut a).advance := by
  unfold afterStore at h
  split at h
  · simp only [Host.Outcome.next.injEq] at h
    exact ⟨_, rfl, h.symm⟩
  · simp at h

/-- What an instruction that loads has done, if it completes. -/
theorem afterLoad_next {a : Word} {r : Except Refusal (Word × State)} {use : Word → State → State} {t : State}
    (h : afterLoad a r use = .next t) : ∃ v t₀, r = .ok (v, t₀) ∧ t = use v (t₀.setAluOut a) := by
  unfold afterLoad at h
  split at h
  · simp only [Host.Outcome.next.injEq] at h
    exact ⟨_, _, rfl, h.symm⟩
  · simp at h

/-- Everything interrupt entry can do (60_exceptions.md R246). -/
theorem enterInterrupt_next {s t : State} (h : enterInterrupt s = .next t) :
    ∃ t₀, pushWord s.pc s = .ok t₀ ∧ t = (t₀.setIe false).setPc s.isrVector := by
  unfold enterInterrupt at h
  split at h
  · simp only [Host.Outcome.next.injEq] at h
    exact ⟨_, by assumption, h.symm⟩
  · simp at h

/-- Everything a return from an interrupt can do (45_interrupt_instructions.md R221). -/
theorem returnFromInterrupt_next {s t : State} (h : returnFromInterrupt s = .next t) :
    ∃ v t₀, popWord s = .ok (v, t₀) ∧ t = (t₀.setAluOut (nextAddress s.sp)).setPc v :=
  afterLoad_next h

/-- A completed instruction step fetched a defined word and executed it. -/
theorem runInstruction_next {s t : State} (h : runInstruction s = .next t) :
    ∃ w i, region s.pc = .mainMemory ∧ s.mem.read s.pc = some w ∧ decode w = .ok i ∧
      exec i { s with ir := w } = .next t := by
  unfold runInstruction at h
  split at h
  · simp at h
  · rename_i w t₀ hf
    obtain ⟨hr, hm, rfl⟩ := fetch_cases hf
    split at h
    · simp at h
    · rename_i i hd
      exact ⟨w, i, hr, hm, hd, h⟩

/-- Everything a step can do: take the interrupt or run one instruction (60_exceptions.md R244, R245). -/
theorem step_cases {s t : State} (h : step s = .next t) :
    (s.tick.takesInterrupt = true ∧ enterInterrupt s.tick = .next t) ∨
    (s.tick.takesInterrupt = false ∧ runInstruction s.tick = .next t) := by
  unfold step at h
  split at h
  · exact .inl ⟨by assumption, h⟩
  · rename_i hn
    exact .inr ⟨Bool.eq_false_iff.mpr hn, h⟩

/-- A main memory region is an address below the size of main memory. -/
theorem region_mainMemory {a : Word} : region a = .mainMemory ↔ a.toNat < mainMemoryWords := by
  unfold region
  split
  · simp_all
  · split <;> [simp_all; split <;> [simp_all; split <;> [simp_all; split <;> simp_all]]]

/-- Every write keeps the canonical form of memory. -/
theorem memWrite_keeps_wf {a v : Word} {s t : State} (h : memWrite a v s = .ok t) (hw : s.mem.wf = true) :
    t.mem.wf = true := by
  obtain ⟨hr, rfl⟩ | ⟨-, rfl⟩ | ⟨-, -, rfl⟩ := memWrite_cases h
  · exact Memory.wf_write _ _ _ hw (region_mainMemory.mp hr)
  · exact hw
  · exact hw

/-- A read changes no word of memory. -/
theorem memRead_mem {a v : Word} {s t : State} (h : memRead a s = .ok (v, t)) : t.mem = s.mem := by
  obtain ⟨-, -, rfl⟩ | ⟨-, -, rfl⟩ | ⟨-, -, rfl⟩ := memRead_cases h <;> rfl

/-- The memory at reset is canonical. -/
theorem reset_mem_wf : State.reset.mem.wf = true := rfl

end Sys2Proof.Machine
end

