-- ==== Sys2Proof/Laws/PerInstr.lean ====
section
/-! SUPPORT. A family made per instruction: every encoding lies in its row of spec/opcode_table.json. -/

namespace Sys2Proof.Laws.TableRow

open Sys2Proof

/-- The encoding of the instruction has the fixed bits of its row. -/
def Statement (i : Instr) : Prop := encode i &&& i.rowMask = i.rowMatch

theorem formatA1_opcodeBits (op : BitVec 5) (d a b : BitVec 3) :
    formatA1 op d a b &&& 0xF800#16 = op ++ 0#11 := by
  apply BitVec.eq_of_getLsbD_eq
  intro i hi
  simp only [formatA1, BitVec.getLsbD_and, BitVec.getLsbD_append]
  interval_cases i
  all_goals simp

theorem formatA2_opcodeBits (op : BitVec 5) (d a : BitVec 3) (imm : BitVec 5) :
    formatA2 op d a imm &&& 0xF800#16 = op ++ 0#11 := by
  apply BitVec.eq_of_getLsbD_eq
  intro i hi
  simp only [formatA2, BitVec.getLsbD_and, BitVec.getLsbD_append]
  interval_cases i
  all_goals simp

theorem formatA2_condBits (op : BitVec 5) (d a : BitVec 3) (imm : BitVec 5) :
    formatA2 op d a imm &&& 0xFF00#16 = op ++ d ++ 0#8 := by
  apply BitVec.eq_of_getLsbD_eq
  intro i hi
  simp only [formatA2, BitVec.getLsbD_and, BitVec.getLsbD_append]
  interval_cases i
  all_goals simp

theorem formatShift_fixedBits (op : BitVec 5) (d a : BitVec 3) (count : Nat) :
    formatShift op d a count &&& 0xF810#16 = op ++ 0#11 := by
  apply BitVec.eq_of_getLsbD_eq
  intro i hi
  simp only [formatShift, BitVec.getLsbD_and, BitVec.getLsbD_append]
  interval_cases i
  all_goals simp

theorem formatB_opcodeBits (op : BitVec 5) (d : BitVec 3) (imm : BitVec 8) :
    formatB op d imm &&& 0xF800#16 = op ++ 0#11 := by
  apply BitVec.eq_of_getLsbD_eq
  intro i hi
  simp only [formatB, BitVec.getLsbD_and, BitVec.getLsbD_append]
  interval_cases i
  all_goals simp

theorem formatB_condBits (op : BitVec 5) (d : BitVec 3) (imm : BitVec 8) :
    formatB op d imm &&& 0xFF00#16 = op ++ d ++ 0#8 := by
  apply BitVec.eq_of_getLsbD_eq
  intro i hi
  simp only [formatB, BitVec.getLsbD_and, BitVec.getLsbD_append]
  interval_cases i
  all_goals simp

theorem add (rd ra rb : Reg) : Statement (.add rd ra rb) := formatA1_opcodeBits _ _ _ _

theorem addi (rd ra : Reg) (imm : BitVec 5) : Statement (.addi rd ra imm) := formatA2_opcodeBits _ _ _ _

theorem addib (rd : Reg) (imm : BitVec 8) : Statement (.addib rd imm) := formatB_opcodeBits _ _ _

theorem adc (rd ra rb : Reg) : Statement (.adc rd ra rb) := formatA1_opcodeBits _ _ _ _

theorem adci (rd ra : Reg) (imm : BitVec 5) : Statement (.adci rd ra imm) := formatA2_opcodeBits _ _ _ _

theorem neg (rd ra : Reg) : Statement (.neg rd ra) := formatA2_opcodeBits _ _ _ _

theorem sub (rd ra rb : Reg) : Statement (.sub rd ra rb) := formatA1_opcodeBits _ _ _ _

theorem subi (rd ra : Reg) (imm : BitVec 5) : Statement (.subi rd ra imm) := formatA2_opcodeBits _ _ _ _

theorem subib (rd : Reg) (imm : BitVec 8) : Statement (.subib rd imm) := formatB_opcodeBits _ _ _

theorem suc (rd ra rb : Reg) : Statement (.suc rd ra rb) := formatA1_opcodeBits _ _ _ _

theorem suci (rd ra : Reg) (imm : BitVec 5) : Statement (.suci rd ra imm) := formatA2_opcodeBits _ _ _ _

theorem cmp (ra rb : Reg) : Statement (.cmp ra rb) := formatA1_opcodeBits _ _ _ _

theorem cmpi (ra : Reg) (imm : BitVec 5) : Statement (.cmpi ra imm) := formatA2_opcodeBits _ _ _ _

theorem and (rd ra rb : Reg) : Statement (.and rd ra rb) := formatA1_opcodeBits _ _ _ _

theorem or (rd ra rb : Reg) : Statement (.or rd ra rb) := formatA1_opcodeBits _ _ _ _

theorem xor (rd ra rb : Reg) : Statement (.xor rd ra rb) := formatA1_opcodeBits _ _ _ _

theorem not (rd ra : Reg) : Statement (.not rd ra) := formatA2_opcodeBits _ _ _ _

theorem nand (rd ra rb : Reg) : Statement (.nand rd ra rb) := formatA1_opcodeBits _ _ _ _

theorem nor (rd ra rb : Reg) : Statement (.nor rd ra rb) := formatA1_opcodeBits _ _ _ _

theorem lsl (rd ra : Reg) (count : Nat) : Statement (.lsl rd ra count) := formatShift_fixedBits _ _ _ _

theorem lsr (rd ra : Reg) (count : Nat) : Statement (.lsr rd ra count) := formatShift_fixedBits _ _ _ _

theorem asr (rd ra : Reg) (count : Nat) : Statement (.asr rd ra count) := formatShift_fixedBits _ _ _ _

theorem ldw (rd ra : Reg) (imm : BitVec 5) : Statement (.ldw rd ra imm) := formatA2_opcodeBits _ _ _ _

theorem stw (rd ra : Reg) (imm : BitVec 5) : Statement (.stw rd ra imm) := formatA2_opcodeBits _ _ _ _

theorem lui (rd : Reg) (imm : BitVec 8) : Statement (.lui rd imm) := formatB_opcodeBits _ _ _

theorem lli (rd : Reg) (imm : BitVec 8) : Statement (.lli rd imm) := formatB_opcodeBits _ _ _

theorem br (imm : BitVec 8) : Statement (.br imm) := formatB_condBits _ _ _

theorem bne (imm : BitVec 8) : Statement (.bne imm) := formatB_condBits _ _ _

theorem be (imm : BitVec 8) : Statement (.be imm) := formatB_condBits _ _ _

theorem blt (imm : BitVec 8) : Statement (.blt imm) := formatB_condBits _ _ _

theorem bge (imm : BitVec 8) : Statement (.bge imm) := formatB_condBits _ _ _

theorem bwl (imm : BitVec 8) : Statement (.bwl imm) := formatB_condBits _ _ _

theorem ret : Statement (.ret) := formatB_condBits _ _ _

theorem jmp (ra : Reg) (imm : BitVec 5) : Statement (.jmp ra imm) := formatA2_condBits _ _ _ _

theorem push (src : StackReg) : Statement (.push src) := by
  cases src with
  | gpr r => cases r <;> rfl
  | lr => rfl

theorem pop (src : StackReg) : Statement (.pop src) := by
  cases src with
  | gpr r => cases r <;> rfl
  | lr => rfl

theorem reti : Statement (.reti) := rfl

theorem enai : Statement (.enai) := rfl

theorem disi : Statement (.disi) := rfl

theorem stf : Statement (.stf) := rfl

theorem ldf : Statement (.ldf) := rfl

end Sys2Proof.Laws.TableRow
end

