-- ==== Sys2Proof/Tests/Slice0.lean ====
section
/-! SUPPORT. Tests of one step or one decoding each. Expected results are the spec's own vectors (95_test_vectors.md,
section named at each group) or its encoding rows (30_encoding.md R96). -/

namespace Sys2Proof.Tests

open Sys2Proof Sys2Proof.Machine

/-! ### Well-formedness: each check refuses an ill-formed term (30_encoding.md R95, R103) -/

theorem test_lsl_count_16_is_ill_formed : Instr.WellFormed (.lsl .r5 .r3 16) = false := by decide
theorem test_lsr_count_16_is_ill_formed : Instr.WellFormed (.lsr .r5 .r3 16) = false := by decide
theorem test_asr_count_16_is_ill_formed : Instr.WellFormed (.asr .r5 .r3 16) = false := by decide
theorem test_lsl_count_15_is_well_formed : Instr.WellFormed (.lsl .r5 .r3 15) = true := by decide

/-! ### Decoding: words written out from the pattern column of 30_encoding.md R96 -/

/-- What the decoder reads. -/
def decoded (w : Word) : Option Instr := (decode w).toOption

theorem test_decode_add : decoded 0b0001010101101000#16 = some (.add .r5 .r3 .r2) := by decide
theorem test_decode_addi : decoded 0b0011010101100111#16 = some (.addi .r5 .r3 7#5) := by decide
theorem test_decode_addib : decoded 0b0001110101011101#16 = some (.addib .r5 93#8) := by decide
theorem test_decode_adc : decoded 0b0010010101101000#16 = some (.adc .r5 .r3 .r2) := by decide
theorem test_decode_adci : decoded 0b0010110110000111#16 = some (.adci .r5 .r4 7#5) := by decide
theorem test_decode_neg : decoded 0b1101010101100000#16 = some (.neg .r5 .r3) := by decide
theorem test_decode_sub : decoded 0b0101010101101000#16 = some (.sub .r5 .r3 .r2) := by decide
theorem test_decode_subi : decoded 0b0111010101100111#16 = some (.subi .r5 .r3 7#5) := by decide
theorem test_decode_subib : decoded 0b0101110101011101#16 = some (.subib .r5 93#8) := by decide
theorem test_decode_suc : decoded 0b0110010101101000#16 = some (.suc .r5 .r3 .r2) := by decide
theorem test_decode_suci : decoded 0b0110110110000111#16 = some (.suci .r5 .r4 7#5) := by decide
theorem test_decode_cmp : decoded 0b0011100001101000#16 = some (.cmp .r3 .r2) := by decide
theorem test_decode_cmpi : decoded 0b0111100001100111#16 = some (.cmpi .r3 7#5) := by decide
theorem test_decode_and : decoded 0b1000010101101000#16 = some (.and .r5 .r3 .r2) := by decide
theorem test_decode_or : decoded 0b1000110101101000#16 = some (.or .r5 .r3 .r2) := by decide
theorem test_decode_xor : decoded 0b1001110101101000#16 = some (.xor .r5 .r3 .r2) := by decide
theorem test_decode_not : decoded 0b1001010101100000#16 = some (.not .r5 .r3) := by decide
theorem test_decode_nand : decoded 0b1011010101101000#16 = some (.nand .r5 .r3 .r2) := by decide
theorem test_decode_nor : decoded 0b1011110101101000#16 = some (.nor .r5 .r3 .r2) := by decide
theorem test_decode_lsl : decoded 0b1111110101100111#16 = some (.lsl .r5 .r3 7) := by decide
theorem test_decode_lsr : decoded 0b1110110101100111#16 = some (.lsr .r5 .r3 7) := by decide
theorem test_decode_asr : decoded 0b1110010101100111#16 = some (.asr .r5 .r3 7) := by decide
theorem test_decode_ldw : decoded 0b0000010101100111#16 = some (.ldw .r5 .r3 7#5) := by decide
theorem test_decode_stw : decoded 0b0100010101100111#16 = some (.stw .r5 .r3 7#5) := by decide
theorem test_decode_lui : decoded 0b1010010101011101#16 = some (.lui .r5 93#8) := by decide
theorem test_decode_lli : decoded 0b1010110101011101#16 = some (.lli .r5 93#8) := by decide
theorem test_decode_br : decoded 0b1111000011111011#16 = some (.br 0xFB#8) := by decide
theorem test_decode_bne : decoded 0b1111011000000101#16 = some (.bne 5#8) := by decide
theorem test_decode_be : decoded 0b1111011100000101#16 = some (.be 5#8) := by decide
theorem test_decode_blt : decoded 0b1111010011111101#16 = some (.blt 0xFD#8) := by decide
theorem test_decode_bge : decoded 0b1111010111111101#16 = some (.bge 0xFD#8) := by decide
theorem test_decode_bwl : decoded 0b1111001100000110#16 = some (.bwl 6#8) := by decide
theorem test_decode_ret : decoded 0b1111001000000000#16 = some (.ret) := by decide
theorem test_decode_jmp : decoded 0b1111000101100111#16 = some (.jmp .r3 7#5) := by decide
theorem test_decode_push_reg : decoded 0b0100100001100001#16 = some (.push (.gpr .r3)) := by decide
theorem test_decode_push_lr : decoded 0b0100110000000001#16 = some (.push .lr) := by decide
theorem test_decode_pop_reg : decoded 0b0000100001100001#16 = some (.pop (.gpr .r3)) := by decide
theorem test_decode_pop_lr : decoded 0b0000110000000001#16 = some (.pop .lr) := by decide
theorem test_decode_reti : decoded 0b1100100011100000#16 = some (.reti) := by decide
theorem test_decode_enai : decoded 0b1100100111100000#16 = some (.enai) := by decide
theorem test_decode_disi : decoded 0b1100101011100000#16 = some (.disi) := by decide
theorem test_decode_stf : decoded 0b1100101111100000#16 = some (.stf) := by decide
theorem test_decode_ldf : decoded 0b1100110011100000#16 = some (.ldf) := by decide
theorem test_decode_zero_word_is_ldw : decoded 0x0000#16 = some (.ldw .r0 .r0 0#5) := by decide
theorem test_decode_add_ignores_bits_1_0 : decoded 0x156B#16 = some (.add .r5 .r3 .r2) := by decide
theorem test_decode_cmp_ignores_bits_10_8 : decoded 0x3F68#16 = some (.cmp .r3 .r2) := by decide
theorem test_decode_neg_ignores_bits_4_0 : decoded 0xD57F#16 = some (.neg .r5 .r3) := by decide
theorem test_decode_push_lr_ignores_ra : decoded 0x4FE1#16 = some (.push .lr) := by decide
theorem test_decode_ret_ignores_bits_7_0 : decoded 0xF2AB#16 = some (.ret) := by decide
theorem test_decode_reti_ignores_bits_4_0 : decoded 0xC8FF#16 = some (.reti) := by decide

/-- Why the decoder refuses. -/
def decodeError (w : Word) : Option DecodeError :=
  match decode w with
  | .ok _ => none
  | .error e => some e

theorem test_decode_unassigned : decodeError 0xC000#16 = some .unassignedOpcode ∧
    decodeError 0xD800#16 = some .unassignedOpcode := by decide
theorem test_decode_bad_interrupt : decodeError 0xC800#16 = some .undefinedInterruptWord ∧
    decodeError 0xCDE0#16 = some .undefinedInterruptWord ∧ decodeError 0xCFE0#16 = some .undefinedInterruptWord := by decide
theorem test_decode_bad_stack : decodeError 0x4862#16 = some .undefinedStackWord ∧
    decodeError 0x0800#16 = some .undefinedStackWord := by decide
theorem test_decode_bad_shift : decodeError 0xFFFF#16 = some .undefinedShiftWord ∧
    decodeError 0xED70#16 = some .undefinedShiftWord ∧ decodeError 0xE57F#16 = some .undefinedShiftWord := by decide

/-! ### One step: 95_test_vectors.md sections 2.1 to 2.9 -/

/-- The reset state with PC at 0x0010 and a word there. -/
def small (w : Word) : State := { State.reset with pc := 0x0010#16, mem := [(0x0010, w)] }

/-- A view of the state after one step. -/
def after {α : Type} (s : State) (view : State → α) : Option α :=
  match step s with
  | .next t => some (view t)
  | .fault _ => none
  | .refused _ => none

/-- Why a step was refused. -/
def refusal (s : State) : Option Refusal :=
  match step s with
  | .next _ => none
  | .fault _ => none
  | .refused r => some r

/-- R5 and the flags N, Z, V, C. -/
def r5NZVC (t : State) : Word × Flags := (t.reg .r5, t.flags)

/-- R5 and the flags N, Z, V. -/
def r5NZV (t : State) : Word × Bool × Bool × Bool := (t.reg .r5, t.flags.n, t.flags.z, t.flags.v)

/-- R5 and the flags N, Z. -/
def r5NZ (t : State) : Word × Bool × Bool := (t.reg .r5, t.flags.n, t.flags.z)

/-- N, Z, V. -/
def nzv (t : State) : Bool × Bool × Bool := (t.flags.n, t.flags.z, t.flags.v)

/-- R3 and R2 set. -/
def withR3R2 (s : State) (a b : Word) : State := (s.setReg .r3 a).setReg .r2 b

/-- The carry flag set. -/
def withC (s : State) : State := s.setFlags ⟨false, false, false, true⟩

theorem test_add_overflow : after (withR3R2 (small 0x1568#16) 0x7FFF#16 0x0001#16) r5NZVC = some (0x8000#16, ⟨true, false, true, false⟩) := by decide
theorem test_add_carry : after (withR3R2 (small 0x1568#16) 0x8000#16 0xFFFF#16) r5NZVC = some (0x7FFF#16, ⟨false, false, true, true⟩) := by decide
theorem test_addi_minus_one : after (withR3R2 (small 0x357F#16) 0x0010#16 0x0000#16) r5NZVC = some (0x000F#16, ⟨false, false, false, true⟩) := by decide
theorem test_addi_overflow : after (withR3R2 (small 0x356F#16) 0x7FF8#16 0x0000#16) r5NZVC = some (0x8007#16, ⟨true, false, true, false⟩) := by decide
theorem test_addib : after ((small 0x1D80#16).setReg .r5 0x0010#16) r5NZVC = some (0xFF90#16, ⟨true, false, false, false⟩) := by decide
theorem test_addib_overflow : after ((small 0x1D7F#16).setReg .r5 0x7FFF#16) r5NZVC = some (0x807E#16, ⟨true, false, true, false⟩) := by decide
theorem test_adc_carry_out : after (withC (withR3R2 (small 0x2568#16) 0xFFFF#16 0x0000#16)) r5NZVC = some (0x0000#16, ⟨false, true, false, true⟩) := by decide
theorem test_adc_overflow : after (withC (withR3R2 (small 0x2568#16) 0x7FFF#16 0x0000#16)) r5NZVC = some (0x8000#16, ⟨true, false, true, false⟩) := by decide
theorem test_adci : after (withC (withR3R2 (small 0x2D67#16) 0x0010#16 0x0000#16)) r5NZVC = some (0x0018#16, ⟨false, false, false, false⟩) := by decide
theorem test_adci_minus_one : after (withC (withR3R2 (small 0x2D7F#16) 0x0001#16 0x0000#16)) r5NZVC = some (0x0001#16, ⟨false, false, false, true⟩) := by decide
theorem test_neg : after (withC (withR3R2 (small 0xD560#16) 0x0001#16 0x0000#16)) r5NZVC = some (0xFFFF#16, ⟨true, false, false, false⟩) := by decide
theorem test_neg_most_negative : after (withC (withR3R2 (small 0xD560#16) 0x8000#16 0x0000#16)) r5NZVC = some (0x8000#16, ⟨true, false, false, false⟩) := by decide
theorem test_sub_overflow : after (withR3R2 (small 0x5568#16) 0x8000#16 0x0001#16) r5NZV = some (0x7FFF#16, false, false, true) := by decide
theorem test_sub_overflow_up : after (withR3R2 (small 0x5568#16) 0x7FFF#16 0xFFFF#16) r5NZV = some (0x8000#16, true, false, true) := by decide
theorem test_subi_minus_one : after (withR3R2 (small 0x757F#16) 0x7FFF#16 0x0000#16) r5NZV = some (0x8000#16, true, false, true) := by decide
theorem test_subi : after (withR3R2 (small 0x7567#16) 0x0010#16 0x0000#16) r5NZV = some (0x0009#16, false, false, false) := by decide
theorem test_subib : after ((small 0x5D5D#16).setReg .r5 0x0100#16) r5NZV = some (0x00A3#16, false, false, false) := by decide
theorem test_subib_borrows : after ((small 0x5D01#16).setReg .r5 0x0000#16) r5NZV = some (0xFFFF#16, true, false, false) := by decide
theorem test_suc : after (withC (withR3R2 (small 0x6568#16) 0x0010#16 0x0003#16)) r5NZV = some (0x000C#16, false, false, false) := by decide
theorem test_suc_overflow : after (withC (withR3R2 (small 0x6568#16) 0x8000#16 0x0000#16)) r5NZV = some (0x7FFF#16, false, false, true) := by decide
theorem test_suci : after (withC (withR3R2 (small 0x6D67#16) 0x0010#16 0x0000#16)) r5NZV = some (0x0008#16, false, false, false) := by decide
theorem test_suci_zero : after (withC (withR3R2 (small 0x6D60#16) 0x0000#16 0x0000#16)) r5NZV = some (0xFFFF#16, true, false, false) := by decide
theorem test_cmp_less_with_overflow : after (withR3R2 (small 0x3868#16) 0x8000#16 0x0001#16) nzv = some (false, false, true) := by decide
theorem test_cmp_writes_no_register : after (withR3R2 (small 0x3868#16) 0x0004#16 0x0005#16) (fun s => (s.regs, nzv s)) = some ((withR3R2 (small 0x3868#16) 0x0004#16 0x0005#16).regs, true, false, false) := by decide
theorem test_cmpi_listing_2 : after (withR3R2 (small 0x786B#16) 0x0001#16 0x0000#16) nzv = some (true, false, false) := by decide
theorem test_cmpi_minus_16 : after (withR3R2 (small 0x7870#16) 0x7FFF#16 0x0000#16) nzv = some (true, false, true) := by decide
theorem test_sub_carry_zeroLiteral : after (withR3R2 { small 0x5568#16 with subCarry := .zeroLiteral } 0x0003#16 0x0010#16) (fun s => s.flags.c) = some false := by decide
theorem test_sub_carry_notBorrow : after (withR3R2 { small 0x5568#16 with subCarry := .notBorrow } 0x0003#16 0x0010#16) (fun s => s.flags.c) = some false := by decide
theorem test_sub_carry_borrow : after (withR3R2 { small 0x5568#16 with subCarry := .borrow } 0x0003#16 0x0010#16) (fun s => s.flags.c) = some true := by decide
theorem test_and : after (withR3R2 (small 0x8568#16) 0xF0F0#16 0xFF00#16) r5NZ = some (0xF000#16, true, false) := by decide
theorem test_or : after (withR3R2 (small 0x8D68#16) 0xF0F0#16 0x0F00#16) r5NZ = some (0xFFF0#16, true, false) := by decide
theorem test_xor : after (withR3R2 (small 0x9D68#16) 0xF0F0#16 0xFF00#16) r5NZ = some (0x0FF0#16, false, false) := by decide
theorem test_not : after (withR3R2 (small 0x9560#16) 0x00FF#16 0x0000#16) r5NZ = some (0xFF00#16, true, false) := by decide
theorem test_nand : after (withR3R2 (small 0xB568#16) 0xF0F0#16 0xFF00#16) r5NZ = some (0x0FFF#16, false, false) := by decide
theorem test_nor : after (withR3R2 (small 0xBD68#16) 0xF0F0#16 0x0F00#16) r5NZ = some (0x000F#16, false, false) := by decide
theorem test_lsl : after (withR3R2 (small 0xFD67#16) 0x0123#16 0x0000#16) r5NZ = some (0x9180#16, true, false) := by decide
theorem test_lsl_15 : after (withR3R2 (small 0xFD6F#16) 0x0002#16 0x0000#16) r5NZ = some (0x0000#16, false, true) := by decide
theorem test_lsr : after (withR3R2 (small 0xED67#16) 0x9234#16 0x0000#16) r5NZ = some (0x0124#16, false, false) := by decide
theorem test_lsr_15 : after (withR3R2 (small 0xED6F#16) 0x8000#16 0x0000#16) r5NZ = some (0x0001#16, false, false) := by decide
theorem test_asr_negative : after (withR3R2 (small 0xE567#16) 0x9234#16 0x0000#16) r5NZ = some (0xFF24#16, true, false) := by decide
theorem test_asr_positive : after (withR3R2 (small 0xE567#16) 0x1234#16 0x0000#16) r5NZ = some (0x0024#16, false, false) := by decide
theorem test_ldw : after (withR3R2 { small 0x0567#16 with mem := [(0x0010, 0x0567#16), (0x0107, 0xABCD#16)] } 0x0100#16 0x0000#16) (fun s => s.reg .r5) = some 0xABCD#16 := by decide
theorem test_ldw_negative_offset : after (withR3R2 { small 0x057F#16 with mem := [(0x0010, 0x057F#16), (0x00FF, 0x1111#16)] } 0x0100#16 0x0000#16) (fun s => s.reg .r5) = some 0x1111#16 := by decide
theorem test_stw : after ((withR3R2 (small 0x4567#16) 0x0100#16 0x0000#16).setReg .r5 0xBEEF#16) (fun s => s.mem) = some [(0x0010, 0x4567#16), (0x0107, 0xBEEF#16)] := by decide
theorem test_stw_leds : after (((small 0x4160#16).setReg .r3 0x0801#16).setReg .r1 0x009C#16) (fun s => s.dev.leds) = some 0x009C#16 := by decide
theorem test_stw_unmapped : refusal ((small 0x4160#16).setReg .r3 0x0900#16) = some (.unmappedWrite 0x0900#16) := by decide
theorem test_lui : after (small 0xA55D#16) (fun s => s.reg .r5) = some 0x5D00#16 := by decide
theorem test_lli : after ((small 0xAD5D#16).setReg .r5 0x1234#16) (fun s => s.reg .r5) = some 0x125D#16 := by decide
theorem test_lli_no_sign : after ((small 0xADFF#16).setReg .r5 0x0000#16) (fun s => s.reg .r5) = some 0x00FF#16 := by decide
theorem test_br_back : after ((small 0xF0FB#16).setFlags ⟨false, false, false, false⟩) (fun s => s.pc) = some 0x000B#16 := by decide
theorem test_br_wraps : after ((small 0xF080#16).setFlags ⟨false, false, false, false⟩) (fun s => s.pc) = some 0xFF90#16 := by decide
theorem test_bne_taken : after ((small 0xF605#16).setFlags ⟨false, false, false, false⟩) (fun s => s.pc) = some 0x0015#16 := by decide
theorem test_bne_not_taken : after ((small 0xF605#16).setFlags ⟨false, true, false, false⟩) (fun s => s.pc) = some 0x0011#16 := by decide
theorem test_be_taken : after ((small 0xF705#16).setFlags ⟨false, true, false, false⟩) (fun s => s.pc) = some 0x0015#16 := by decide
theorem test_be_not_taken : after ((small 0xF705#16).setFlags ⟨false, false, false, false⟩) (fun s => s.pc) = some 0x0011#16 := by decide
theorem test_blt_taken : after ((small 0xF4FD#16).setFlags ⟨false, false, true, false⟩) (fun s => s.pc) = some 0x000D#16 := by decide
theorem test_blt_not_taken : after ((small 0xF4FD#16).setFlags ⟨true, false, true, false⟩) (fun s => s.pc) = some 0x0011#16 := by decide
theorem test_bge_taken : after ((small 0xF5FD#16).setFlags ⟨true, false, true, false⟩) (fun s => s.pc) = some 0x000D#16 := by decide
theorem test_bge_not_taken : after ((small 0xF5FD#16).setFlags ⟨true, false, false, false⟩) (fun s => s.pc) = some 0x0011#16 := by decide
theorem test_bwl : after (small 0xF306#16) (fun s => (s.lr, s.pc)) = some (0x0011#16, 0x0016#16) := by decide
theorem test_bwl_back : after (small 0xF3F0#16) (fun s => (s.lr, s.pc)) = some (0x0011#16, 0x0000#16) := by decide
theorem test_ret : after ((small 0xF2FF#16).setLr 0x1234#16) (fun s => (s.lr, s.pc)) = some (0x1234#16, 0x1234#16) := by decide
theorem test_jmp : after ((small 0xF167#16).setReg .r3 0x0100#16) (fun s => s.pc) = some 0x0107#16 := by decide
theorem test_jmp_negative : after ((small 0xF170#16).setReg .r3 0x0008#16) (fun s => s.pc) = some 0xFFF8#16 := by decide
theorem test_push : after (((small 0x4861#16).setReg .r3 0xBEEF#16).setSp 0x07D0#16) (fun s => (s.sp, s.mem.read 0x07CF#16)) = some (0x07CF#16, some 0xBEEF#16) := by decide
theorem test_push_lr : after (((small 0x4C01#16).setLr 0x000E#16).setSp 0x07CF#16) (fun s => (s.sp, s.mem.read 0x07CE#16)) = some (0x07CE#16, some 0x000E#16) := by decide
theorem test_push_r7_is_refused : refusal ((small 0x48E1#16).setSp 0x07D0#16) = some .pushOfStackPointer := by decide
theorem test_pop_r7_is_refused : refusal ((small 0x08E1#16).setSp 0x07CF#16) = some .popOfStackPointer := by decide
theorem test_pop : after ({ small 0x0861#16 with mem := [(0x0010, 0x0861#16), (0x07CF, 0xBEEF#16)] }.setSp 0x07CF#16) (fun s => (s.sp, s.reg .r3)) = some (0x07D0#16, 0xBEEF#16) := by decide
theorem test_pop_lr : after ({ small 0x0C01#16 with mem := [(0x0010, 0x0C01#16), (0x07CE, 0x000E#16)] }.setSp 0x07CE#16) (fun s => (s.sp, s.lr)) = some (0x07CF#16, 0x000E#16) := by decide
theorem test_stf : after (((small 0xCBE0#16).setSp 0x07D0#16).setFlags ⟨true, false, true, false⟩) (fun s => (s.sp, s.mem.read 0x07CF#16)) = some (0x07CF#16, some 0x0003#16) := by decide
theorem test_stf_zero_and_carry : after (((small 0xCBE0#16).setSp 0x07D0#16).setFlags ⟨false, true, false, true⟩) (fun s => s.mem.read 0x07CF#16) = some (some 0x000C#16) := by decide
theorem test_ldf : after ({ small 0xCCE0#16 with mem := [(0x0010, 0xCCE0#16), (0x07CF, 0xFFFC#16)] }.setSp 0x07CF#16) (fun s => (s.sp, s.flags)) = some (0x07D0#16, ⟨false, true, false, true⟩) := by decide
theorem test_ldf_sign_and_zero : after ({ small 0xCCE0#16 with mem := [(0x0010, 0xCCE0#16), (0x07CF, 0x000A#16)] }.setSp 0x07CF#16) (fun s => s.flags) = some ⟨false, true, true, false⟩ := by decide
theorem test_reti : after (({ small 0xC8E0#16 with mem := [(0x0010, 0xC8E0#16), (0x07CF, 0x0123#16)] }.setSp 0x07CF#16).setIe true) (fun s => (s.pc, s.sp, s.ie)) = some (0x0123#16, 0x07D0#16, true) := by decide
theorem test_enai : after (small 0xC9E0#16) (fun s => (s.ie, s.pc)) = some (true, 0x0011#16) := by decide
theorem test_disi : after ((small 0xCAE0#16).setIe true) (fun s => s.ie) = some false := by decide

/-! ### Interrupt and devices (95_test_vectors.md 2.9; 60_exceptions.md R246, R262 to R265) -/

/-- A value unread and the serial interrupt enabled: nIRQ is low. -/
def pending (s : State) : State :=
  { s with dev := { s.dev with serialData := 0x0042#16, serialUnread := true, serialIntEnable := true } }

/-- At 0x000A with the stack at 0x07D0 and the ISR at 0x000B. -/
def atBoundary : State := { (small 0x0000#16).setSp 0x07D0#16 with pc := 0x000A#16, isrVector := 0x000B#16 }

theorem test_interrupt_entry : after ((pending atBoundary).setIe true)
    (fun s => (s.pc, s.sp, s.ie, s.mem.read 0x07CF#16)) =
    some (0x000B#16, 0x07CF#16, false, some 0x000A#16) := by decide
theorem test_no_entry_when_disabled : refusal (pending atBoundary) = some (.unwrittenFetch 0x000A#16) := by decide
theorem test_arrival_is_taken_at_its_boundary : after ({ (atBoundary.setIe true) with boundary := 12, dev :=
    { Device.reset with serialIntEnable := true, arrivals := [⟨12, 0x0042#16⟩] } }) (fun s => (s.pc, s.dev.serialData)) =
    some (0x000B#16, 0x0042#16) := by decide
theorem test_serial_read_releases_the_request : after (pending ((small 0x0060#16).setReg .r3 0xA000#16))
    (fun s => (s.reg .r0, s.dev.irqPending)) = some (0x0042#16, false) := by decide
theorem test_serial_enable : after (((small 0x4160#16).setReg .r3 0xA001#16).setReg .r1 0x0001#16)
    (fun s => s.dev.serialIntEnable) = some true := by decide
theorem test_serial_enable_other_value : refusal (((small 0x4160#16).setReg .r3 0xA001#16).setReg .r1 0x0002#16) =
    some (.undescribedSerialControl 0x0002#16) := by decide
theorem test_switches_read : after ({ (small 0x0060#16).setReg .r3 0x0800#16 with
    dev := { Device.reset with switches := 0x0C0D#16 } }) (fun s => s.reg .r0) = some 0x0C0D#16 := by decide
theorem test_first_instruction_after_reset : after (State.reset.withFetchWord 16 0xA55D)
    (fun s => (s.reg .r5, s.pc)) = some (0x5D00#16, 0x0001#16) := by decide

/-! ### Hand assembly (95_test_vectors.md program P2 and the errors of 30_encoding.md R117) -/

theorem test_assemble_listing_3 : (assemble ["LUI SP,#7", "LLI SP,#208 ; Set SP", "PUSH R0", "PUSH R1",
    "LDW R0,[SP,#0]", "LDW R1,[SP,#1]", "POP R1", "POP R0", ".end BR .end"]).toOption =
    some [0xA707#16, 0xAFD0#16, 0x4801#16, 0x4821#16, 0x00E0#16, 0x01E1#16, 0x0821#16, 0x0801#16, 0xF000#16] := by decide
theorem test_assemble_defines : (assemble [".define i R0", ".define temp R2", "LUI i 0", ".loop ADDI temp i 1",
    "CMPI temp 11", "BGE .end", "BR .loop", ".end BR .end"]).toOption =
    some [0xA000#16, 0x3201#16, 0x784B#16, 0xF502#16, 0xF0FD#16, 0xF000#16] := by decide

/-- Why and where assembly stops: the line, the number in the list of 30_encoding.md R117, the error. -/
def asmFailure (source : List String) : Option (Nat × Option Nat × AsmError) :=
  match assemble source with
  | .ok _ => none
  | .error f => some (f.line, f.error.number, f.error)

theorem test_old_define_name_is_invalid : asmFailure [".define a R0", ".define b R0", "ADDI a b 1"] =
    some (3, some 2, .unknownRegister ['a']) := by decide
theorem test_define_replaces : (assemble [".define a R0", ".define a R1", "PUSH a"]).toOption = some [0x4821#16] := by
  decide
theorem test_error_1_message : assemblyMessage ["RET", "ADDX_R6 R6 5"] =
    some ⟨some 1, "Unrecognised Mneumonic", .file 2, Config.displayedText "ADDX_R6 R6 5"⟩ := by rfl
theorem test_message_of_the_example : AsmMessage.display ⟨some 1, "Unrecognised Mneumonic", .file 37, "ADDX_R6 R6 5"⟩ =
    "ERROR1: Unrecognised Mneumonic lineNo: f37 -> ADDX_R6 R6 5" := by decide
theorem test_label_after_the_last_word : (assemble ["BR .end", ".end"]).toOption = some [0xF001#16] := by decide
theorem test_error_5 : (AsmError.unrecognisedMnemonic []).number = some 5 ∧
    (AsmError.unrecognisedMnemonic []).description = (AsmError.unknownMnemonic []).description := by decide
theorem test_unknown_mnemonic_stops_on_its_line : (asmFailure ["RET", "ADDX R1,R2"]).map (fun f => f.1) = some 2 := by rfl
theorem test_error_1_and_3 :
    asmFailure ["RET", "ADDX_R6 R6 5"] = some (2, some 1, .unknownMnemonic "ADDX_R6".toList) ∧
    asmFailure ["BXX .l"] = some (1, some 3, .unknownBranchCondition "BXX".toList) := by decide
theorem test_error_4_and_15 : asmFailure ["BR .x"] = some (1, some 4, .undefinedLabel ".x".toList) ∧
    asmFailure ["ADD R1,R2"] = some (1, some 15, .notEnoughOperands "ADD".toList) := by decide
theorem test_error_6_to_8 : asmFailure ["LSL R1,R2,#16"] = some (1, some 6, .shiftCount "#16".toList) ∧
    asmFailure ["ADDI R1,R2,#32"] = some (1, some 7, .immediateTooLarge "#32".toList) ∧
    asmFailure ["LUI R1,#256"] = some (1, some 8, .byteTooLarge "#256".toList) := by decide
theorem test_error_9 : parseLabel [(".far".toList, 300)] none 172 ".far".toList = .error (.branchOutOfRange ".far".toList) ∧
    (parseLabel [(".far".toList, 300)] none 173 ".far".toList).toOption = some 127#8 := by decide
theorem test_error_10_and_13 : asmFailure [".a RET", ".a RET"] = some (2, some 10, .duplicateLabel ".a".toList) ∧
    asmFailure ["RET", ".define a R9"] = some (2, some 13, .badDefine) := by decide
theorem test_error_11_and_12 :
    asmFailure ["BR .isr", ".isr STF", "RETI"] = some (1, some 11, .branchIntoIsr ".isr".toList) ∧
    asmFailure [".isr RETI", ".ISR RETI"] = some (2, some 12, .multipleIsrs) := by decide
theorem test_isr_without_reti : asmFailure ["RETI", ".isr STF", "RET"] = some (2, none, .isrWithoutReti) := by decide

theorem test_not_a_number : asmFailure ["ADDI R1,R2,#0x1F"] = some (1, some 7, .immediateTooLarge "#0x1F".toList) ∧
    asmFailure ["LLI R1,abc"] = some (1, some 8, .byteTooLarge "abc".toList) ∧
    asmFailure ["LSR R1,R2,abc"] = some (1, some 6, .shiftCount "abc".toList) := by decide
theorem test_lr_is_the_link_register : (assemble [".define LR R3", "PUSH LR"]).toOption = some [0x4C01#16] := by decide
theorem test_isr_label_is_spelled_as_written :
    asmFailure [".isr BR .ISR", "RETI"] = some (1, some 4, .undefinedLabel ".ISR".toList) := by decide

/-- Eight lines that leave no general register unused. -/
def allRegistersUsed : List String :=
  ["PUSH R0", "PUSH R1", "PUSH R2", "PUSH R3", "PUSH R4", "PUSH R5", "PUSH R6", "LDW R0,[SP,#0]"]

theorem test_error_14 : asmFailure (allRegistersUsed ++ [".isr RETI"]) = some (9, some 14, .noUnusedRegister) := by decide
theorem test_unused_register : asmFailure (allRegistersUsed.drop 1 ++ [".isr RETI"]) = some (8, some 14, .noUnusedRegister) ∧
    asmFailure (allRegistersUsed.take 7 ++ [".isr RETI"]) = none := by decide

/-! ### Witnesses: concrete values that meet the hypotheses of the statements with hypotheses, at the ends of each range -/

/-- The step gives a next state with the property. -/
def Steps (s : State) (property : State → Prop) : Prop := ∃ t, step s = .next t ∧ property t

/-- The instruction gives a next state with the property. -/
def Runs (i : Instr) (s : State) (property : State → Prop) : Prop := ∃ t, exec i s = .next t ∧ property t

theorem witness_DecodeOfEncodeIsIdentity : Instr.WellFormed (.asr .r7 .r0 15) = true := by decide
theorem witness_AcceptedWordsLieInTheirRow : decode 0xC8FF#16 = .ok .reti ∧
    (0xC8FF#16 ^^^ 0xC8E0#16) &&& ~~~(Instr.reti).ignoredBits = 0x0000#16 ∧ decode 0x4C01#16 = .ok (.push .lr) ∧
    (0x4C01#16 ^^^ 0x4FE1#16) &&& ~~~(Instr.push .lr).ignoredBits = 0x0000#16 := ⟨rfl, by decide, rfl, by decide⟩
theorem witness_StepRunsTheDecodedInstruction : (small 0xA55D#16).tick.takesInterrupt = false ∧
    (small 0xA55D#16).pc.toNat < 0x0800 ∧ (small 0xA55D#16).mem.read (small 0xA55D#16).pc = some 0xA55D#16 ∧
    decode 0xA55D#16 = .ok (.lui .r5 0x5D#8) := ⟨by decide, by decide, by decide, rfl⟩
theorem witness_step_at_the_last_word : refusal { small 0xC000#16 with pc := 0x07FF#16, mem := [(0x07FF, 0xC000#16)] } =
    some (.undefinedWord 0xC000#16 .unassignedOpcode) := by decide
theorem witness_step_unwritten : refusal { small 0xC000#16 with pc := 0x0000#16 } = some (.unwrittenFetch 0x0000#16) := by decide
theorem witness_step_at_devices : refusal { small 0xC000#16 with pc := 0x0800#16 } = some (.deviceFetch 0x0800#16) ∧
    refusal { small 0xC000#16 with pc := 0x0801#16 } = some (.deviceFetch 0x0801#16) ∧
    refusal { small 0xC000#16 with pc := 0xA000#16 } = some (.deviceFetch 0xA000#16) ∧
    refusal { small 0xC000#16 with pc := 0xA001#16 } = some (.deviceFetch 0xA001#16) := by decide
theorem witness_step_unmapped : refusal { small 0xC000#16 with pc := 0x0802#16 } = some (.unmappedFetch 0x0802#16) ∧
    refusal { small 0xC000#16 with pc := 0x9FFF#16 } = some (.unmappedFetch 0x9FFF#16) ∧
    refusal { small 0xC000#16 with pc := 0xA002#16 } = some (.unmappedFetch 0xA002#16) ∧
    refusal { small 0xC000#16 with pc := 0xFFFF#16 } = some (.unmappedFetch 0xFFFF#16) := by decide

/-- Interrupts enabled, nIRQ low, the stack as given. -/
def interrupting (sp : Word) : State := (pending (atBoundary.setSp sp)).setIe true

theorem witness_InterruptEntryPushesPcAndDisables : (interrupting 0x0001#16).ie = true ∧
    ((interrupting 0x0001#16).dev.tick 0).serialIntEnable = true ∧
    ((interrupting 0x0001#16).dev.tick 0).serialUnread = true ∧ ((interrupting 0x0001#16).reg .r7 - 1#16).toNat < 0x0800 ∧
    ((interrupting 0x0800#16).reg .r7 - 1#16).toNat < 0x0800 := by decide

/-- One arrival scheduled for boundary 12, which is the next. -/
def arriving : State :=
  { (atBoundary.setIe true) with
    boundary := 12
    dev := { Device.reset with serialIntEnable := true, arrivals := [⟨12, 0x0042#16⟩] } }

/-- The arrivals that are due. -/
def dueArrivals (s : State) : List Arrival := s.dev.arrivals.filter (fun x => decide (x.boundary ≤ s.boundary))

/-- Two arrivals due and one to come, a value unread. -/
def arrivingTwice : State :=
  { arriving with dev :=
      { arriving.dev with
        serialData := 0x0011#16, serialUnread := true
        arrivals := [⟨11, 0x0042#16⟩, ⟨13, 0x0044#16⟩, ⟨12, 0x0043#16⟩] } }

theorem witness_ArrivalsAreReceivedAtTheirBoundary : arriving.ie = true ∧ arriving.dev.serialIntEnable = true ∧
    (dueArrivals arriving).getLast? = some ⟨12, 0x0042#16⟩ ∧ (arriving.reg .r7 - 1#16).toNat < 0x0800 ∧
    dueArrivals { arriving with boundary := 11 } = [] := by decide
theorem witness_several_arrivals : arrivingTwice.ie = true ∧ arrivingTwice.dev.serialUnread = true ∧
    (dueArrivals arrivingTwice).getLast? = some ⟨12, 0x0043#16⟩ ∧
    after arrivingTwice (fun t => (t.dev.serialData, t.dev.arrivals)) = some (0x0043#16, [⟨13, 0x0044#16⟩]) := by decide
theorem witness_disabled_device : { Device.reset with serialUnread := true }.serialIntEnable = false ∧
    effectiveAddress ((withR3R2 (small 0) 0xA001#16 0x0001#16).reg .r3) 0#5 = 0xA001#16 ∧
    (withR3R2 { small 0 with dev := { Device.reset with serialUnread := true } } 0xA001#16 0x0001#16).reg .r2 = 0x0001#16 ∧
    (withR3R2 { small 0 with dev := { Device.reset with serialUnread := true } } 0xA001#16 0x0001#16).dev.serialUnread =
      true := by decide
theorem witness_FlagVOpen : ¬FlagVOpen (-32768) (-32767) ∧ ¬FlagVOpen 0 32767 ∧ ¬FlagVOpen 1 32768 ∧
    FlagVOpen (-32768) (-32768) ∧ FlagVOpen 0 32768 := by unfold FlagVOpen; decide
theorem witness_FlagCSubtract : { small 0 with subCarry := .zeroLiteral }.subCarry = Config.SubCarry.zeroLiteral ∧
    { small 0 with subCarry := .notBorrow }.subCarry = Config.SubCarry.notBorrow ∧
    { small 0 with subCarry := .borrow }.subCarry = Config.SubCarry.borrow := by decide
theorem witness_BranchAfterCompareDecidesSignedOrder :
    ¬((withR3R2 (small 0) 0x0000#16 0x7FFF#16).reg .r3 = 0x0000#16 ∧
      (withR3R2 (small 0) 0x0000#16 0x7FFF#16).reg .r2 = 0x8000#16) ∧
    ¬((withR3R2 (small 0) 0xFFFF#16 0x8000#16).reg .r3 = 0x0000#16 ∧
      (withR3R2 (small 0) 0xFFFF#16 0x8000#16).reg .r2 = 0x8000#16) := by decide
theorem witness_AddThenAdcAddsTwoWordNumbers : Reg.r0 ≠ .r3 ∧ Reg.r0 ≠ .r5 ∧ Reg.r1 ≠ .r0 := by decide
theorem witness_shift_counts : 0 < 16 ∧ 15 < 16 := by decide
theorem witness_main_memory_ends : (effectiveAddress 0x0000#16 0#5).toNat < 0x0800 ∧
    (effectiveAddress 0x07FF#16 0#5).toNat < 0x0800 ∧ (effectiveAddress 0xFFFF#16 1#5).toNat < 0x0800 := by decide
theorem witness_device_addresses : effectiveAddress 0x0801#16 31#5 = 0x0800#16 ∧
    effectiveAddress 0x0800#16 1#5 = 0x0801#16 ∧ effectiveAddress 0xA001#16 31#5 = 0xA000#16 ∧
    effectiveAddress 0xA000#16 1#5 = 0xA001#16 := by decide
theorem witness_StwWritesDevices : effectiveAddress ((withR3R2 (small 0) 0xA001#16 0x0001#16).reg .r3) 0#5 = 0xA001#16 ∧
    (withR3R2 (small 0) 0xA001#16 0x0001#16).reg .r2 = 0x0001#16 := by decide
/-- The stack pointer as given. -/
def stackAt (sp : Word) : State := (small 0).setSp sp

theorem witness_push_premises : StackReg.lr ≠ .gpr .r7 ∧ StackReg.gpr .r6 ≠ .gpr .r7 ∧
    (previousAddress (stackAt 0x0001#16).sp).toNat < 0x0800 ∧ (previousAddress (stackAt 0x0800#16).sp).toNat < 0x0800 ∧
    ((stackAt 0x0001#16).reg .r7 - 1#16).toNat < 0x0800 ∧ ((stackAt 0x0800#16).reg .r7 - 1#16).toNat < 0x0800 := by decide
theorem witness_pop_premises : ((stackAt 0x0000#16).reg .r7).toNat < 0x0800 ∧
    ((stackAt 0x07FF#16).reg .r7).toNat < 0x0800 ∧ Reg.r0 ≠ .r7 := by decide
theorem witness_StackAccessesReachDevices : (stackAt 0x0800#16).reg .r7 = 0x0800#16 ∧
    (stackAt 0xA000#16).reg .r7 = 0xA000#16 ∧ (stackAt 0x0802#16).reg .r7 = 0x0802#16 ∧
    (stackAt 0xA002#16).reg .r7 = 0xA002#16 ∧ Reg.r6 ≠ .r7 ∧ StackReg.lr ≠ .gpr .r7 := by decide
theorem witness_control_values : ((stackAt 0xA002#16).setLr 0x0001#16).stackReg .lr = 0x0001#16 ∧
    flagWord ((stackAt 0xA002#16).setFlags ⟨true, false, false, false⟩).flags = 0x0001#16 ∧
    ((stackAt 0xA002#16).setPc 0x0001#16).pc = 0x0001#16 ∧ (interrupting 0xA002#16).tick.takesInterrupt = true := by decide
theorem witness_UndescribedAccessesAreRefused : ∀ p ∈ [(0x0802#16, Refusal.unmappedRead 0x0802#16),
      (0x9FFF#16, .unmappedRead 0x9FFF#16), (0xA002#16, .unmappedRead 0xA002#16), (0xFFFF#16, .unmappedRead 0xFFFF#16),
      (0x0801#16, .readOfLeds), (0xA001#16, .readOfSerialControl)],
    LoadUndescribed ((stackAt p.1).reg .r7) p.2 ∧ LoadUndescribed (effectiveAddress p.1 0#5) p.2 := by
  unfold LoadUndescribed Unpopulated; decide
theorem witness_undescribed_stores : ∀ p ∈ [(0x0000#16, Refusal.unmappedWrite 0xFFFF#16),
      (0x0803#16, .unmappedWrite 0x0802#16), (0xA000#16, .unmappedWrite 0x9FFF#16), (0xA003#16, .unmappedWrite 0xA002#16),
      (0x0801#16, .writeToSwitches), (0xA001#16, .writeToSerialData), (0xA002#16, .undescribedSerialControl 0)],
    StoreUndescribed ((stackAt p.1).reg .r7 - 1#16) 0 p.2 ∧ StoreUndescribed (effectiveAddress p.1 31#5) 0 p.2 := by
  unfold StoreUndescribed Unpopulated; decide
theorem witness_undescribed_entry : (interrupting 0x0000#16).Enters ∧
    StoreUndescribed ((interrupting 0x0000#16).reg .r7 - 1#16) (interrupting 0x0000#16).pc (.unmappedWrite 0xFFFF#16) := by
  unfold State.Enters StoreUndescribed Unpopulated; decide
theorem witness_IsrReturnsToTheInterruptedProgram : ∃ a b,
    ((stackAt 0x0002#16).reg .r7 - 1#16).toNat < 0x0800 ∧ ((stackAt 0x0002#16).reg .r7 - 2#16).toNat < 0x0800 ∧
    enterInterrupt (stackAt 0x0002#16) = .next a ∧ exec .stf a = .next b ∧ (b.setReg .r0 0x0042#16).reg .r7 = b.reg .r7 ∧
    (b.setReg .r0 0x0042#16).word 0x0001#16 = b.word 0x0001#16 ∧
    (b.setReg .r0 0x0042#16).word 0x0000#16 = b.word 0x0000#16 :=
  ⟨_, _, by decide, by decide, rfl, rfl, rfl, rfl, rfl⟩
theorem witness_EnaiActsAtTheNextBoundary : Runs .enai (pending atBoundary) (fun _ => True) ∧
    (pending atBoundary).dev.serialIntEnable = true ∧ (pending atBoundary).dev.serialUnread = true ∧
    ((pending atBoundary).reg .r7 - 1#16).toNat < 0x0800 := ⟨⟨_, rfl, trivial⟩, by decide⟩
theorem witness_StoredWordIsFetchedNext :
    Runs (.stw .r2 .r3 0#5) (withR3R2 (small 0) 0x0011#16 0xF200#16) (fun t => t.tick.takesInterrupt = false) ∧
    effectiveAddress ((withR3R2 (small 0) 0x0011#16 0xF200#16).reg .r3) 0#5 = (small 0).pc + 1#16 ∧
    ((small 0).pc + 1#16).toNat < 0x0800 ∧ decode ((withR3R2 (small 0) 0x0011#16 0xF200#16).reg .r2) = .ok .ret :=
  ⟨⟨_, rfl, by decide⟩, by decide, by decide, rfl⟩
theorem witness_store_to_itself_stw :
    Steps (withR3R2 (small 0x4260#16) 0x0010#16 0xF200#16) (fun t => t.word 0x0010#16 = some 0xF200#16) ∧
    decode 0x4260#16 = .ok (.stw .r2 .r3 0#5) ∧ effectiveAddress 0x0010#16 0#5 = 0x0010#16 := ⟨⟨_, rfl, rfl⟩, rfl, by decide⟩
theorem witness_store_to_itself_push_stf :
    Steps ((small 0x4C01#16).setSp 0x0011#16) (fun t => t.pc = 0x0011#16) ∧ decode 0x4C01#16 = .ok (.push .lr) ∧
    Steps ((small 0xCBE0#16).setSp 0x0011#16) (fun t => t.pc = 0x0011#16) ∧ decode 0xCBE0#16 = .ok .stf ∧
    ((small 0x4C01#16).setSp 0x0011#16).reg .r7 - 1#16 = 0x0010#16 :=
  ⟨⟨_, rfl, rfl⟩, rfl, ⟨_, rfl, rfl⟩, rfl, by decide⟩
theorem witness_InstructionsWriteOnlyTheirRow : Runs (.lui .r1 7#8) (small 0) (fun _ => True) := ⟨_, rfl, trivial⟩
theorem witness_IeIsWrittenAndReadOnlyAsListed : Steps (small 0xC9E0#16) (fun t => t.ie ≠ (small 0xC9E0#16).ie) ∧
    Steps ((small 0xCAE0#16).setIe true) (fun t => t.ie ≠ true) ∧
    Steps (interrupting 0x07D0#16) (fun t => t.ie ≠ true) :=
  ⟨⟨_, rfl, by decide⟩, ⟨_, rfl, by decide⟩, ⟨_, rfl, by decide⟩⟩
theorem witness_step_that_enters : (interrupting 0x07D0#16).Enters ∧ Steps (interrupting 0x07D0#16) (fun t => t.ie = false) :=
  ⟨by unfold State.Enters; decide, ⟨_, rfl, by decide⟩⟩
theorem witness_OnlyBwlAndPopWriteLr : Steps (small 0xF306#16) (fun t => t.lr ≠ (small 0xF306#16).lr) ∧
    Steps ({ small 0x0C01#16 with mem := [(0x0010, 0x0C01#16), (0x07CE, 0x000E#16)] }.setSp 0x07CE#16)
      (fun t => t.lr ≠ 0x0000#16) := ⟨⟨_, rfl, by decide⟩, ⟨_, rfl, by decide⟩⟩
theorem witness_OnlyListedStoresWriteMemory : Steps (interrupting 0x07D0#16)
      (fun t => t.word 0x07CF#16 ≠ (interrupting 0x07D0#16).word 0x07CF#16) ∧
    Steps ((small 0x4160#16).setReg .r3 0x07FF#16) (fun t => t.word 0x07FF#16 ≠ (small 0x4160#16).word 0x07FF#16) :=
  ⟨⟨_, rfl, by decide⟩, ⟨_, rfl, by decide⟩⟩
theorem witness_RequestIsHeldUntilRead : Steps (pending ((small 0x0060#16).setReg .r3 0xA000#16))
      (fun t => t.dev.serialUnread = false ∧ t.dev.irqPending = false) ∧
    (pending ((small 0x0060#16).setReg .r3 0xA000#16)).dev.irqPending = true ∧
    (pending (small 0x0060#16)).dev.serialUnread = true ∧ (pending (small 0x0060#16)).dev.serialIntEnable = true :=
  ⟨⟨_, rfl, by decide⟩, by decide⟩
theorem witness_LedsChangeOnlyByStores : Steps (((small 0x4160#16).setReg .r3 0x0801#16).setReg .r1 0x009C#16)
      (fun t => t.dev.leds ≠ (small 0x4160#16).dev.leds) ∧
    Steps (interrupting 0x0802#16) (fun t => t.dev.leds ≠ (interrupting 0x0802#16).dev.leds) :=
  ⟨⟨_, rfl, by decide⟩, ⟨_, rfl, by decide⟩⟩
theorem witness_a_step_is_taken : Steps (small 0xA55D#16) (fun t => t.ie = false) ∧ (small 0xA55D#16).ie = false :=
  ⟨⟨_, rfl, by decide⟩, by decide⟩
theorem witness_StepKeepsTheInvariant : (small 0xA55D#16).Inv := ⟨by decide, by unfold small State.reset Device.reset; simp⟩
theorem witness_ResetAndLoadMeetTheInvariant : [0xF000#16].length ≤ 0x0800 := by decide
theorem witness_FinalStatesStayFinal : { small 0xF000#16 with ir := 0xF000#16 }.Final ∧
    { small 0xF000#16 with ir := 0xF000#16 }.ir = 0xF000#16 := ⟨⟨by unfold State.AtSelfBranch; decide, .inl rfl⟩, rfl⟩
theorem witness_AssembledWordsAreTheirLinesInstructions : assemble [".a", "RET : back", ".b BR .a"] =
    .ok [0xF200#16, 0xF0FF#16] := rfl
theorem witness_well_written_source : checkSource ["BR .far", "RET", ".far RET"] = .ok none ∧
    List.Forall₂ (fun l i => AsmLine.Denotes ["BR .far", "RET", ".far RET"] none l i)
      (programLines ["BR .far", "RET", ".far RET"]) [.br 2#8, .ret, .ret] :=
  ⟨rfl, .cons ⟨rfl, .cons ⟨2, by decide, by decide, by decide, by decide, by decide⟩ .nil⟩
    (.cons ⟨rfl, .nil⟩ (.cons ⟨rfl, .nil⟩ .nil))⟩

end Sys2Proof.Tests
end

section
/-! N and Z of the arithmetic instructions (40_arithmetic.md R131): the two flag functions as the rule characterises them,
then one lemma per shared shape of the meanings (add, subtract, negate, compare), then the thirteen rows of R130. -/

namespace Sys2Proof.Machine

open Sys2Proof

/-! ### The flag functions -/

/-- Bit 15 is the sign of a word read as a two's complement number. -/
theorem negativeFlag_iff (r : Word) : negativeFlag r = true ↔ r.toInt < 0 := by
  have hsign : negativeFlag r = r.msb := (BitVec.msb_eq_getLsbD_last r).symm
  simp [hsign, BitVec.msb_eq_toInt]

theorem zeroFlag_iff (r : Word) : zeroFlag r = true ↔ r.toNat = 0 := by
  simp [zeroFlag, BitVec.toNat_eq]

/-- Without a borrow the exact difference reduced modulo 65536 is the difference of words (40_arithmetic.md R130). -/
theorem subResult_no_borrow (x y : Word) : subResult x y false = x - y := by
  apply BitVec.eq_of_toNat_eq
  simp only [subResult, trunc16, carryNat, Bool.false_eq_true, if_false, BitVec.toNat_ofInt, BitVec.toNat_sub]
  omega

/-! ### The shared shapes of the meanings -/

/-- The outcome is a next state whose N and Z are those of `result`, which may be read off that state. -/
def NextWithNZ (o : Host.Outcome State Fault Refusal) (result : State → Word) : Prop :=
  ∃ t, o = .next t ∧ FlagsNZ (result t) t.flags ∧ t.flags.n = (result t).getLsbD 15

/-- A next state whose N and Z the two flag functions computed from the result is as R131 says. -/
theorem nextWithNZ_next {t : State} {result : State → Word} (hn : t.flags.n = negativeFlag (result t))
    (hz : t.flags.z = zeroFlag (result t)) : NextWithNZ (.next t) result := by
  refine ⟨t, rfl, ⟨?negative, ?zero⟩, hn⟩
  case negative => rw [hn, negativeFlag_iff]
  case zero => rw [hz, zeroFlag_iff]

/-- The added word is written before the flags, so N and Z are those of what Rd holds in the end. -/
theorem addInto_nextWithNZ (rd : Reg) (x y : Word) (cin : Bool) (s : State) :
    NextWithNZ (addInto rd x y cin s) (·.reg rd) :=
  nextWithNZ_next (by simp [addFlags]) (by simp [addFlags])

/-- N and Z do not depend on `SUB_CARRY`, which decides C alone. -/
theorem subInto_nextWithNZ (rd : Reg) (x y : Word) (cin : Bool) (s : State) :
    NextWithNZ (subInto rd x y cin s) (·.reg rd) :=
  nextWithNZ_next (by simp [subFlags]) (by simp [subFlags])

/-- NEG clears V and C but sets N and Z from its result (40_arithmetic.md R140). -/
theorem execNeg_nextWithNZ (rd ra : Reg) (s : State) : NextWithNZ (execNeg rd ra s) (·.reg rd) :=
  nextWithNZ_next (by simp [negFlags]) (by simp [negFlags])

/-- A compare writes no register: N and Z are those of the difference itself. -/
theorem compareWords_nextWithNZ (x y : Word) (s : State) : NextWithNZ (compareWords x y s) (fun _ => x - y) :=
  nextWithNZ_next (by simp [subFlags, subResult_no_borrow]) (by simp [subFlags, subResult_no_borrow])

/-! ### The thirteen instructions -/

/-- Each instruction that writes Rd is an add, a subtract or NEG, on the operands of its row of R130. -/
theorem exec_arithmetic_nextWithNZ (rd ra rb : Reg) (imm : BitVec 5) (byte : BitVec 8) (s : State) :
    ∀ i ∈ [Instr.add rd ra rb, .addi rd ra imm, .addib rd byte, .adc rd ra rb, .adci rd ra imm, .neg rd ra,
        .sub rd ra rb, .subi rd ra imm, .subib rd byte, .suc rd ra rb, .suci rd ra imm],
      NextWithNZ (exec i s) (·.reg rd) := by
  simp only [List.forall_mem_cons, List.not_mem_nil, false_implies, implies_true, and_true]
  refine ⟨?add, ?addi, ?addib, ?adc, ?adci, ?neg, ?sub, ?subi, ?subib, ?suc, ?suci⟩
  case add => exact addInto_nextWithNZ rd (s.reg ra) (s.reg rb) false s
  case addi => exact addInto_nextWithNZ rd (s.reg ra) (sext5 imm) false s
  case addib => exact addInto_nextWithNZ rd (s.reg rd) (sext8 byte) false s
  case adc => exact addInto_nextWithNZ rd (s.reg ra) (s.reg rb) s.flags.c s
  case adci => exact addInto_nextWithNZ rd (s.reg ra) (sext5 imm) s.flags.c s
  case neg => exact execNeg_nextWithNZ rd ra s
  case sub => exact subInto_nextWithNZ rd (s.reg ra) (s.reg rb) false s
  case subi => exact subInto_nextWithNZ rd (s.reg ra) (sext5 imm) false s
  case subib => exact subInto_nextWithNZ rd (s.reg rd) (sext8 byte) false s
  case suc => exact subInto_nextWithNZ rd (s.reg ra) (s.reg rb) s.flags.c s
  case suci => exact subInto_nextWithNZ rd (s.reg ra) (sext5 imm) s.flags.c s

/-- Settles O60: eleven instructions by what they leave in Rd, the two compares by the difference. -/
theorem arithmeticNZFollowTheResult : Obligations.ArithmeticNZFollowTheResult := by
  intro rd ra rb imm byte s
  exact ⟨exec_arithmetic_nextWithNZ rd ra rb imm byte s, compareWords_nextWithNZ (s.reg ra) (s.reg rb) s,
    compareWords_nextWithNZ (s.reg ra) (sext5 imm) s⟩

end Sys2Proof.Machine
end

section
/-! Who writes and who reads IE (60_exceptions.md R243). One fact carries the rule: every meaning but ENAI's and DISI's
commutes with setting IE, so it cannot depend on IE; applied to the IE a state already has, it also says that IE is left
as it was. -/

namespace Sys2Proof.Machine

open Sys2Proof

/-! ### Setting IE in what an operation answers -/

/-- The outcome with IE set in its next state; a refusal stays what it is. -/
def nextSetIe (b : Bool) : Host.Outcome State Fault Refusal → Host.Outcome State Fault Refusal
  | .next t => .next (t.setIe b)
  | .fault r => .fault r
  | .refused r => .refused r

/-- The answer of a read or a pop with IE set in its state. -/
def loadSetIe (b : Bool) (r : Except Refusal (Word × State)) : Except Refusal (Word × State) :=
  r.map fun (v, t) => (v, t.setIe b)

/-! ### The shared operations do not depend on IE -/

theorem memRead_setIe (a : Word) (s : State) (b : Bool) : memRead a (s.setIe b) = loadSetIe b (memRead a s) := by
  unfold memRead
  split <;> rfl

theorem memWrite_setIe (a v : Word) (s : State) (b : Bool) :
    memWrite a v (s.setIe b) = (memWrite a v s).map (·.setIe b) := by
  unfold memWrite
  split
  case h_5 => split <;> rfl
  all_goals rfl

theorem pushWord_setIe (v : Word) (s : State) (b : Bool) :
    pushWord v (s.setIe b) = (pushWord v s).map (·.setIe b) :=
  memWrite_setIe (previousAddress s.sp) v (s.setSp (previousAddress s.sp)) b

theorem popWord_setIe (s : State) (b : Bool) : popWord (s.setIe b) = loadSetIe b (popWord s) := by
  have hread : memRead (s.setIe b).sp (s.setIe b) = loadSetIe b (memRead s.sp s) := memRead_setIe s.sp s b
  unfold popWord
  rw [hread]
  cases memRead s.sp s <;> rfl

theorem afterStore_setIe (a : Word) (r : Except Refusal State) (b : Bool) :
    afterStore a (r.map (·.setIe b)) = nextSetIe b (afterStore a r) := by
  cases r <;> rfl

/-- A load does not depend on IE when what it does with the word does not. -/
theorem afterLoad_setIe (a : Word) (r : Except Refusal (Word × State)) {use : Word → State → State} (b : Bool)
    (huse : ∀ v t, use v (t.setIe b) = (use v t).setIe b) :
    afterLoad a (loadSetIe b r) use = nextSetIe b (afterLoad a r use) := by
  cases r with
  | error => rfl
  | ok p => exact congrArg Host.Outcome.next (huse p.1 (p.2.setAluOut a))

theorem branchIf_setIe (taken : Bool) (imm : BitVec 8) (s : State) (b : Bool) :
    branchIf taken imm (s.setIe b) = nextSetIe b (branchIf taken imm s) := by
  cases taken <;> rfl

theorem State.setStackReg_setIe (s : State) (dst : StackReg) (v : Word) (b : Bool) :
    (s.setIe b).setStackReg dst v = (s.setStackReg dst v).setIe b := by
  cases dst <;> rfl

/-! ### The instructions that access memory -/

theorem execLdw_setIe (rd ra : Reg) (imm : BitVec 5) (s : State) (b : Bool) :
    execLdw rd ra imm (s.setIe b) = nextSetIe b (execLdw rd ra imm s) := by
  simp only [execLdw, State.setIe_reg, memRead_setIe]
  exact afterLoad_setIe _ _ b fun _ _ => rfl

theorem execStw_setIe (rd ra : Reg) (imm : BitVec 5) (s : State) (b : Bool) :
    execStw rd ra imm (s.setIe b) = nextSetIe b (execStw rd ra imm s) := by
  simp only [execStw, State.setIe_reg, memWrite_setIe, afterStore_setIe]

/-- PUSH of R7 is refused whatever IE is; every other source is pushed from a register, LR included. -/
theorem execPush_setIe (src : StackReg) (s : State) (b : Bool) :
    execPush src (s.setIe b) = nextSetIe b (execPush src s) := by
  have hsrc : (s.setIe b).stackReg src = s.stackReg src := by cases src <;> rfl
  unfold execPush
  split
  · rfl
  · rw [hsrc, pushWord_setIe]
    exact afterStore_setIe _ _ b

/-- POP of R7 is refused whatever IE is; every other destination is a register, LR included. -/
theorem execPop_setIe (dst : StackReg) (s : State) (b : Bool) :
    execPop dst (s.setIe b) = nextSetIe b (execPop dst s) := by
  unfold execPop
  split
  · rfl
  · rw [popWord_setIe]
    exact afterLoad_setIe _ _ b fun v t =>
      congrArg State.advance (State.setStackReg_setIe (t.setAluOut _) dst v b)

theorem execStf_setIe (s : State) (b : Bool) : execStf (s.setIe b) = nextSetIe b (execStf s) := by
  unfold execStf
  rw [pushWord_setIe]
  exact afterStore_setIe _ _ b

theorem execLdf_setIe (s : State) (b : Bool) : execLdf (s.setIe b) = nextSetIe b (execLdf s) := by
  unfold execLdf
  rw [popWord_setIe]
  exact afterLoad_setIe _ _ b fun _ _ => rfl

/-- RETI does not set IE again: the return leaves it as the ISR had it (60_exceptions.md R249). -/
theorem execReti_setIe (s : State) (b : Bool) : execReti (s.setIe b) = nextSetIe b (execReti s) := by
  unfold execReti returnFromInterrupt
  rw [popWord_setIe]
  exact afterLoad_setIe _ _ b fun _ _ => rfl

/-! ### All instructions -/

/-- Every instruction but ENAI and DISI does the same with another IE and hands that IE on. -/
theorem exec_setIe {i : Instr} (henai : i ≠ .enai) (hdisi : i ≠ .disi) (s : State) (b : Bool) :
    exec i (s.setIe b) = nextSetIe b (exec i s) := by
  cases i with
  | enai => exact absurd rfl henai
  | disi => exact absurd rfl hdisi
  | ldw rd ra imm => exact execLdw_setIe rd ra imm s b
  | stw rd ra imm => exact execStw_setIe rd ra imm s b
  | push src => exact execPush_setIe src s b
  | pop dst => exact execPop_setIe dst s b
  | reti => exact execReti_setIe s b
  | stf => exact execStf_setIe s b
  | ldf => exact execLdf_setIe s b
  | br imm | bne imm | be imm | blt imm | bge imm => exact branchIf_setIe _ imm s b
  | add | addi | addib | adc | adci | neg | sub | subi | subib | suc | suci | cmp | cmpi => rfl
  | and | or | xor | not | nand | nor | lsl | lsr | asr | lui | lli | bwl | ret | jmp => rfl

/-- No instruction but ENAI and DISI writes IE: setting it to what it was beforehand changes nothing. -/
theorem exec_ie {i : Instr} (henai : i ≠ .enai) (hdisi : i ≠ .disi) {s t : State} (h : exec i s = .next t) :
    t.ie = s.ie := by
  have hsame : Host.Outcome.next t = .next (t.setIe s.ie) :=
    calc Host.Outcome.next t = exec i (s.setIe s.ie) := h.symm
      _ = nextSetIe s.ie (exec i s) := exec_setIe henai hdisi s s.ie
      _ = .next (t.setIe s.ie) := congrArg (nextSetIe s.ie) h
  have hstate : t = t.setIe s.ie := Host.Outcome.next.inj hsame
  exact (congrArg State.ie hstate).trans (State.setIe_ie t s.ie)

/-! ### A step -/

/-- Interrupt entry clears IE, wherever its push goes (60_exceptions.md R246). -/
theorem enterInterrupt_ie {s t : State} (h : enterInterrupt s = .next t) : t.ie = false := by
  obtain ⟨t₀, -, rfl⟩ := enterInterrupt_next h
  rfl

/-- A completed step entered the interrupt, or executed one instruction in the state after the tick and the fetch. -/
theorem step_enters_or_executes {s t : State} (h : step s = .next t) :
    (s.Enters ∧ enterInterrupt s.tick = .next t) ∨
      ∃ w i, s.Executes i ∧ exec i (s.executing w) = .next t := by
  obtain ⟨htakes, henter⟩ | ⟨htakes, hrun⟩ := step_cases h
  · exact .inl ⟨htakes, henter⟩
  · obtain ⟨w, i, hregion, hword, hdecode, hexec⟩ := runInstruction_next hrun
    exact .inr ⟨w, i, ⟨htakes, hregion, w, hword, hdecode⟩, hexec⟩

/-- A step that takes the interrupt leaves IE 0. -/
theorem step_ie_of_enters {s t : State} (h : step s = .next t) (henters : s.Enters) : t.ie = false := by
  obtain ⟨-, henter⟩ | ⟨_, _, ⟨htakes, -⟩, -⟩ := step_enters_or_executes h
  · exact enterInterrupt_ie henter
  · exact absurd (henters.symm.trans htakes) (by decide)

/-- The writers of IE in a step, each with the value it writes. -/
theorem step_ie_writers {s t : State} (h : step s = .next t) (hchange : t.ie ≠ s.ie) :
    (t.ie = true ∧ s.Executes .enai) ∨ (t.ie = false ∧ (s.Executes .disi ∨ s.Enters)) := by
  obtain ⟨henters, henter⟩ | ⟨w, i, hexecutes, hexec⟩ := step_enters_or_executes h
  · exact .inr ⟨enterInterrupt_ie henter, .inr henters⟩
  · by_cases henai : i = .enai
    · subst henai
      exact .inl ⟨by cases hexec; rfl, hexecutes⟩
    by_cases hdisi : i = .disi
    · subst hdisi
      exact .inr ⟨by cases hexec; rfl, .inl hexecutes⟩
    exact absurd (exec_ie henai hdisi hexec) hchange

/-- Settles O48: the writers by what a step does, the readers by `exec_setIe`. -/
theorem ieIsWrittenAndReadOnlyAsListed : Obligations.IeIsWrittenAndReadOnlyAsListed := by
  refine ⟨?reset, ?enaiDisi, ?entry, ?writers, ?enaiDisiRead, ?othersRead⟩
  case reset => rfl
  case enaiDisi => exact fun s => ⟨⟨_, rfl, rfl⟩, ⟨_, rfl, rfl⟩⟩
  case entry => exact fun s t h henters => step_ie_of_enters h henters
  case writers => exact fun s t h hchange => step_ie_writers h hchange
  case enaiDisiRead => exact fun s b => ⟨rfl, rfl⟩
  case othersRead =>
    intro i s t b henai hdisi h
    exact (exec_setIe henai hdisi s b).trans (congrArg (nextSetIe b) h)

end Sys2Proof.Machine
end

section
/-! The decoder (30_encoding.md R80 to R103). One fact carries the round trip, the rows and the don't-care bits: a word
decodes to an instruction exactly when it has the fixed bits of the instruction's row and the instruction's operands in the
row's fields (`decode_ok_iff`). -/

namespace Sys2Proof

/-! ### Fields and masks -/

/-- A field that a mask covers is a field of the masked word. -/
theorem extractLsb'_of_masked {w mask fixed : Word} {lo n : Nat} (h : w &&& mask = fixed)
    (hmask : mask.extractLsb' lo n = BitVec.allOnes n) : w.extractLsb' lo n = fixed.extractLsb' lo n := by
  rw [← h, BitVec.extractLsb'_and, hmask, BitVec.and_allOnes]

/-- Words that differ only in ignored bits differ inside them. -/
theorem xor_and_ignored {w w' ignored : Word} (h : (w ^^^ w') &&& ~~~ignored = 0x0000#16) :
    (w ^^^ w') &&& ignored = w ^^^ w' := by
  ext k hk
  have hbit := congrArg (·[k]) h
  simp only [BitVec.getElem_and, BitVec.getElem_not, BitVec.getElem_zero] at hbit ⊢
  revert hbit
  cases (w ^^^ w')[k] <;> cases ignored[k] <;> simp

/-- Words that differ only in ignored bits agree under every mask without an ignored bit. -/
theorem and_eq_of_ignored {w w' ignored mask : Word} (h : (w ^^^ w') &&& ~~~ignored = 0x0000#16)
    (hmask : ignored &&& mask = 0x0000#16) : w' &&& mask = w &&& mask := by
  have hxor : (w &&& mask) ^^^ (w' &&& mask) = 0x0000#16 :=
    calc (w &&& mask) ^^^ (w' &&& mask) = (w ^^^ w') &&& mask := by ext; simp [Bool.and_xor_distrib_right]
      _ = ((w ^^^ w') &&& ignored) &&& mask := by rw [xor_and_ignored h]
      _ = 0x0000#16 := by rw [BitVec.and_assoc, hmask, BitVec.and_zero]
  exact (BitVec.xor_eq_zero_iff.mp hxor).symm

/-- Words that differ only in ignored bits agree in every field without an ignored bit. -/
theorem extractLsb'_of_ignored {w w' ignored : Word} (h : (w ^^^ w') &&& ~~~ignored = 0x0000#16) (lo n : Nat)
    (hfield : (ignored.extractLsb' lo n).toNat = 0) : w'.extractLsb' lo n = w.extractLsb' lo n := by
  have hzero : ignored.extractLsb' lo n = 0#n := BitVec.eq_of_toNat_eq (by simpa using hfield)
  have hxor : w.extractLsb' lo n ^^^ w'.extractLsb' lo n = 0#n := by
    rw [← BitVec.extractLsb'_xor, ← xor_and_ignored h, BitVec.extractLsb'_and, hzero, BitVec.and_zero]
  exact (BitVec.xor_eq_zero_iff.mp hxor).symm

theorem rdField_eq_iff {w : Word} {r : Reg} : rdField w = r ↔ bitsOfReg r = w.extractLsb' 8 3 :=
  ⟨fun h => h ▸ bitsOfReg_regOfBits _, fun h => by rw [rdField, ← h, regOfBits_bitsOfReg]⟩

theorem raField_eq_iff {w : Word} {r : Reg} : raField w = r ↔ bitsOfReg r = w.extractLsb' 5 3 :=
  ⟨fun h => h ▸ bitsOfReg_regOfBits _, fun h => by rw [raField, raBits, ← h, regOfBits_bitsOfReg]⟩

theorem rbField_eq_iff {w : Word} {r : Reg} : rbField w = r ↔ bitsOfReg r = w.extractLsb' 2 3 :=
  ⟨fun h => h ▸ bitsOfReg_regOfBits _, fun h => by rw [rbField, ← h, regOfBits_bitsOfReg]⟩

theorem imm5Field_eq_iff {w : Word} {imm : BitVec 5} : imm5Field w = imm ↔ imm = w.extractLsb' 0 5 := eq_comm

theorem imm8Field_eq_iff {w : Word} {imm : BitVec 8} : imm8Field w = imm ↔ imm = w.extractLsb' 0 8 := eq_comm

theorem countField_eq_iff {w : Word} {count : Nat} : countField w = count ↔ count = (w.extractLsb' 0 4).toNat :=
  eq_comm

/-! ### The fixed bits of a word, by its fields -/

/-- A mask acts field by field. -/
theorem and_fieldMask (w : Word) (op : BitVec 5) (cond ra : BitVec 3) (low : BitVec 5) :
    w &&& (op ++ cond ++ ra ++ low) =
      (opcodeField w &&& op) ++ (condField w &&& cond) ++ (raBits w &&& ra) ++ (imm5Field w &&& low) := by
  apply BitVec.eq_of_getLsbD_eq
  intro k hk
  simp only [opcodeField, condField, raBits, imm5Field, BitVec.getLsbD_and, BitVec.getLsbD_append,
    BitVec.getLsbD_extractLsb']
  interval_cases k <;> simp

theorem eq_ofNat_of_toNat {n : Nat} {x : BitVec n} {k : Nat} (h : x.toNat = k) : x = BitVec.ofNat n k := by
  subst h; simp

/-- The mask of a row that fixes the opcode alone. -/
theorem and_opcodeMask {w : Word} {op : Nat} (hop : (opcodeField w).toNat = op) :
    w &&& 0xF800#16 = BitVec.ofNat 5 op ++ 0#3 ++ 0#3 ++ 0#5 := by
  rw [← eq_ofNat_of_toNat hop]
  exact (and_fieldMask w (BitVec.allOnes 5) 0#3 0#3 0#5).trans
    (by simp only [BitVec.and_allOnes, BitVec.and_zero])

/-- The mask of a row that fixes Cond as well. -/
theorem and_condMask {w : Word} {op cond : Nat} (hop : (opcodeField w).toNat = op)
    (hcond : (condField w).toNat = cond) :
    w &&& 0xFF00#16 = BitVec.ofNat 5 op ++ BitVec.ofNat 3 cond ++ 0#3 ++ 0#5 := by
  rw [← eq_ofNat_of_toNat hop, ← eq_ofNat_of_toNat hcond]
  exact (and_fieldMask w (BitVec.allOnes 5) (BitVec.allOnes 3) 0#3 0#5).trans
    (by simp only [BitVec.and_allOnes, BitVec.and_zero])

/-- The mask of an interrupt instruction, which fixes all but the low five bits. -/
theorem and_interruptMask {w : Word} {op cond : Nat} (hop : (opcodeField w).toNat = op)
    (hcond : (condField w).toNat = cond) (hra : raBits w = 0b111#3) :
    w &&& 0xFFE0#16 = BitVec.ofNat 5 op ++ BitVec.ofNat 3 cond ++ 0b111#3 ++ 0#5 := by
  rw [← eq_ofNat_of_toNat hop, ← eq_ofNat_of_toNat hcond, ← hra]
  exact (and_fieldMask w (BitVec.allOnes 5) (BitVec.allOnes 3) (BitVec.allOnes 3) 0#5).trans
    (by simp only [BitVec.and_allOnes, BitVec.and_zero])

/-- The mask of PUSH and POP, which fixes the opcode and the low five bits. -/
theorem and_stackMask {w : Word} {op : Nat} (hop : (opcodeField w).toNat = op) (hlow : imm5Field w = 0b00001#5) :
    w &&& 0xF81F#16 = BitVec.ofNat 5 op ++ 0#3 ++ 0#3 ++ 0b00001#5 := by
  rw [← eq_ofNat_of_toNat hop, ← hlow]
  exact (and_fieldMask w (BitVec.allOnes 5) 0#3 0#3 (BitVec.allOnes 5)).trans
    (by simp only [BitVec.and_allOnes, BitVec.and_zero])

/-- Bit 4 is a field of its own in the shift formats. -/
theorem imm5Field_and_bit4 (w : Word) : imm5Field w &&& 0b10000#5 = shiftFixedBit w ++ 0#4 := by
  apply BitVec.eq_of_getLsbD_eq
  intro k hk
  simp only [imm5Field, shiftFixedBit, BitVec.getLsbD_and, BitVec.getLsbD_append, BitVec.getLsbD_extractLsb']
  interval_cases k <;> simp

/-- The mask of a shift, which fixes the opcode and bit 4. -/
theorem and_shiftMask {w : Word} {op : Nat} (hop : (opcodeField w).toNat = op) (hbit : shiftFixedBit w = 0#1) :
    w &&& 0xF810#16 = BitVec.ofNat 5 op ++ 0#3 ++ 0#3 ++ 0#5 := by
  have hlow : imm5Field w &&& 0b10000#5 = 0#5 := by rw [imm5Field_and_bit4, hbit]; rfl
  rw [← eq_ofNat_of_toNat hop]
  exact (and_fieldMask w (BitVec.allOnes 5) 0#3 0#3 0b10000#5).trans
    (by simp only [BitVec.and_allOnes, BitVec.and_zero, hlow])

/-! ### An accepted word lies in its row -/

/-- The word is one of the instruction's row: its fixed bits, and the operands in its fields. -/
def InRow (w : Word) (i : Instr) : Prop :=
  i.WellFormed = true ∧ w &&& i.rowMask = i.rowMatch ∧ i.fieldsIn w

theorem fieldsIn_regs (w : Word) : bitsOfReg (rdField w) = w.extractLsb' 8 3 ∧
    bitsOfReg (raField w) = w.extractLsb' 5 3 ∧ bitsOfReg (rbField w) = w.extractLsb' 2 3 :=
  ⟨bitsOfReg_regOfBits _, bitsOfReg_regOfBits _, bitsOfReg_regOfBits _⟩

theorem shiftCountFits_countField (w : Word) : shiftCountFits (countField w) = true :=
  decide_eq_true (w.extractLsb' 0 4).isLt

theorem decodeShift_ok {make : Reg → Reg → Nat → Instr} {w : Word} {i : Instr} (h : decodeShift make w = .ok i) :
    shiftFixedBit w = 0#1 ∧ i = make (rdField w) (raField w) (countField w) := by
  unfold decodeShift at h
  split at h
  · next hbit => exact ⟨hbit, (Except.ok.inj h).symm⟩
  · cases h

/-- An accepted PUSH or POP word: L = 0 with the register of its Ra field, or L = 1 with LR. -/
theorem decodeStack_ok {make : StackReg → Instr} {w : Word} {i : Instr} (h : decodeStack make w = .ok i) :
    imm5Field w = 0b00001#5 ∧
      ((linkBit w = 0#1 ∧ i = make (.gpr (raField w))) ∨ (linkBit w = 1#1 ∧ i = make .lr)) := by
  unfold decodeStack stackOperandField at h
  split at h
  · next hlow =>
    refine ⟨hlow, ?_⟩
    cases h
    split
    · next hlink => exact .inr ⟨hlink, rfl⟩
    · next hlink => exact .inl ⟨(linkBit w).eq_zero_or_eq_one.resolve_right hlink, rfl⟩
  · cases h

theorem inRow_of_decodeInterrupt {w : Word} {i : Instr} (hop : (opcodeField w).toNat = 25)
    (h : decodeInterrupt w = .ok i) : InRow w i := by
  unfold decodeInterrupt at h
  split at h
  · next hra =>
    split at h <;> cases h
    all_goals rename_i hcond; exact ⟨rfl, and_interruptMask hop hcond hra, trivial⟩
  · cases h

theorem inRow_of_decodeControl {w : Word} (hop : (opcodeField w).toNat = 30) : InRow w (decodeControl w) := by
  obtain ⟨-, hra, -⟩ := fieldsIn_regs w
  unfold decodeControl
  split
  case h_2 hcond => exact ⟨rfl, and_condMask hop hcond, hra, rfl⟩
  case h_3 hcond => exact ⟨rfl, and_condMask hop hcond, trivial⟩
  case h_8 =>
    have hcond : (condField w).toNat = 7 := by
      have hlt := (condField w).isLt
      simp only [imp_false] at *
      omega
    exact ⟨rfl, and_condMask hop hcond, rfl⟩
  all_goals rename_i hcond; exact ⟨rfl, and_condMask hop hcond, rfl⟩

theorem inRow_of_decode {w : Word} {i : Instr} (h : decode w = .ok i) : InRow w i := by
  obtain ⟨hrd, hra, hrb⟩ := fieldsIn_regs w
  unfold decode at h
  split at h
  case h_2 hop | h_10 hop =>
    obtain ⟨hlow, ⟨hlink, rfl⟩ | ⟨hlink, rfl⟩⟩ := decodeStack_ok h
    · exact ⟨rfl, and_stackMask hop hlow, hlink, hra⟩
    · exact ⟨rfl, and_stackMask hop hlow, hlink⟩
  case h_25 hop => exact inRow_of_decodeInterrupt hop h
  case h_27 hop | h_28 hop | h_30 hop =>
    obtain ⟨hbit, rfl⟩ := decodeShift_ok h
    exact ⟨shiftCountFits_countField w, and_shiftMask hop hbit, hrd, hra, rfl⟩
  case h_29 hop => cases h; exact inRow_of_decodeControl hop
  case h_31 => cases h
  all_goals
    cases h
    exact ⟨rfl, and_opcodeMask ‹_›, by simp [Instr.fieldsIn, hrd, hra, hrb, imm5Field, imm8Field]⟩

/-! ### A word of a row decodes to the row's instruction -/

/-- Every row fixes the opcode. -/
theorem opcode_of_row {w : Word} {i : Instr} (h : w &&& i.rowMask = i.rowMatch) :
    w.extractLsb' 11 5 = i.rowMatch.extractLsb' 11 5 :=
  extractLsb'_of_masked h (by cases i <;> simp [Instr.rowMask])

/-- The operand of a PUSH or POP word, by its L bit. -/
theorem stackOperandField_of_fieldsIn {w : Word} {src : StackReg} (h : (Instr.push src).fieldsIn w) :
    stackOperandField w = src := by
  cases src with
  | lr => exact if_pos h
  | gpr r =>
    obtain ⟨hlink, hra⟩ := h
    have hzero : linkBit w ≠ 1#1 := by rw [linkBit, hlink]; decide
    exact (if_neg hzero).trans (congrArg StackReg.gpr (raField_eq_iff.mpr hra))

theorem decode_of_inRow {w : Word} {i : Instr} (h : InRow w i) : decode w = .ok i := by
  obtain ⟨-, hrow, hfields⟩ := h
  have hop := opcode_of_row hrow
  cases i
  case push src | pop src =>
    have hlow := extractLsb'_of_masked (lo := 0) (n := 5) hrow (by simp [Instr.rowMask])
    have hsrc : stackOperandField w = src := by
      cases src <;> exact stackOperandField_of_fieldsIn hfields
    simp [decode, opcodeField, hop, Instr.rowMatch, decodeStack, imm5Field, hlow, hsrc]
  case lsl | lsr | asr =>
    have hbit := extractLsb'_of_masked (lo := 4) (n := 1) hrow (by simp [Instr.rowMask])
    simpa [decode, opcodeField, hop, Instr.rowMatch, decodeShift, shiftFixedBit, hbit, rdField_eq_iff, raField_eq_iff,
      countField_eq_iff, Instr.fieldsIn] using hfields
  case ret =>
    have hcond := extractLsb'_of_masked (lo := 8) (n := 3) hrow (by simp [Instr.rowMask])
    simp [decode, opcodeField, hop, Instr.rowMatch, decodeControl, condField, hcond]
  case br | bne | be | blt | bge | bwl | jmp =>
    have hcond := extractLsb'_of_masked (lo := 8) (n := 3) hrow (by simp [Instr.rowMask])
    simpa [decode, opcodeField, hop, Instr.rowMatch, decodeControl, condField, hcond, raField_eq_iff,
      imm5Field_eq_iff, imm8Field_eq_iff, Instr.fieldsIn] using hfields
  case reti | enai | disi | stf | ldf =>
    have hcond := extractLsb'_of_masked (lo := 8) (n := 3) hrow (by simp [Instr.rowMask])
    have hra := extractLsb'_of_masked (lo := 5) (n := 3) hrow (by simp [Instr.rowMask])
    simp [decode, opcodeField, hop, Instr.rowMatch, decodeInterrupt, condField, hcond, raBits, hra]
  all_goals
    simpa [decode, opcodeField, hop, Instr.rowMatch, rdField_eq_iff, raField_eq_iff, rbField_eq_iff,
      imm5Field_eq_iff, imm8Field_eq_iff, Instr.fieldsIn] using hfields

/-- What the decoder accepts, and as what. -/
theorem decode_ok_iff {w : Word} {i : Instr} : decode w = .ok i ↔ InRow w i :=
  ⟨inRow_of_decode, decode_of_inRow⟩

/-! ### The encoding of an instruction is a word of its row -/

/-- The family `Laws.TableRow` as one statement. -/
theorem encode_row : ∀ i : Instr, encode i &&& i.rowMask = i.rowMatch
  | .add rd ra rb => Laws.TableRow.add rd ra rb
  | .addi rd ra imm => Laws.TableRow.addi rd ra imm
  | .addib rd imm => Laws.TableRow.addib rd imm
  | .adc rd ra rb => Laws.TableRow.adc rd ra rb
  | .adci rd ra imm => Laws.TableRow.adci rd ra imm
  | .neg rd ra => Laws.TableRow.neg rd ra
  | .sub rd ra rb => Laws.TableRow.sub rd ra rb
  | .subi rd ra imm => Laws.TableRow.subi rd ra imm
  | .subib rd imm => Laws.TableRow.subib rd imm
  | .suc rd ra rb => Laws.TableRow.suc rd ra rb
  | .suci rd ra imm => Laws.TableRow.suci rd ra imm
  | .cmp ra rb => Laws.TableRow.cmp ra rb
  | .cmpi ra imm => Laws.TableRow.cmpi ra imm
  | .and rd ra rb => Laws.TableRow.and rd ra rb
  | .or rd ra rb => Laws.TableRow.or rd ra rb
  | .xor rd ra rb => Laws.TableRow.xor rd ra rb
  | .not rd ra => Laws.TableRow.not rd ra
  | .nand rd ra rb => Laws.TableRow.nand rd ra rb
  | .nor rd ra rb => Laws.TableRow.nor rd ra rb
  | .lsl rd ra count => Laws.TableRow.lsl rd ra count
  | .lsr rd ra count => Laws.TableRow.lsr rd ra count
  | .asr rd ra count => Laws.TableRow.asr rd ra count
  | .ldw rd ra imm => Laws.TableRow.ldw rd ra imm
  | .stw rd ra imm => Laws.TableRow.stw rd ra imm
  | .lui rd imm => Laws.TableRow.lui rd imm
  | .lli rd imm => Laws.TableRow.lli rd imm
  | .br imm => Laws.TableRow.br imm
  | .bne imm => Laws.TableRow.bne imm
  | .be imm => Laws.TableRow.be imm
  | .blt imm => Laws.TableRow.blt imm
  | .bge imm => Laws.TableRow.bge imm
  | .bwl imm => Laws.TableRow.bwl imm
  | .ret => Laws.TableRow.ret
  | .jmp ra imm => Laws.TableRow.jmp ra imm
  | .push src => Laws.TableRow.push src
  | .pop dst => Laws.TableRow.pop dst
  | .reti => Laws.TableRow.reti
  | .enai => Laws.TableRow.enai
  | .disi => Laws.TableRow.disi
  | .stf => Laws.TableRow.stf
  | .ldf => Laws.TableRow.ldf

/-! The fields of the table, under the decoder's names. -/

theorem extractLsb'_5_3 (w : Word) : w.extractLsb' 5 3 = raBits w := rfl
theorem extractLsb'_0_5 (w : Word) : w.extractLsb' 0 5 = imm5Field w := rfl
theorem extractLsb'_0_8 (w : Word) : w.extractLsb' 0 8 = imm8Field w := rfl
theorem extractLsb'_10_1 (w : Word) : w.extractLsb' 10 1 = linkBit w := rfl

/-- A format holds what was put into it; only a shift count has to fit its field. -/
theorem encode_fieldsIn {i : Instr} (h : i.WellFormed = true) : i.fieldsIn (encode i) := by
  cases i
  case lsl rd ra count | lsr rd ra count | asr rd ra count =>
    have hcount : count < 16 := of_decide_eq_true h
    simp [Instr.fieldsIn, encode, extractLsb'_5_3, Nat.mod_eq_of_lt hcount]
  case push src | pop src =>
    cases src <;> simp [Instr.fieldsIn, encode, extractLsb'_5_3, extractLsb'_10_1]
  all_goals simp [Instr.fieldsIn, encode, extractLsb'_5_3, extractLsb'_0_5, extractLsb'_0_8]

/-- Settles O1: the encoding lies in the instruction's row. -/
theorem decodeOfEncodeIsIdentity : Obligations.DecodeOfEncodeIsIdentity :=
  fun i h => decode_of_inRow ⟨h, encode_row i, encode_fieldsIn h⟩

/-! ### The other words -/

/-- No fixed bit of a row is a don't-care bit. -/
theorem ignoredBits_and_rowMask (i : Instr) : i.ignoredBits &&& i.rowMask = 0x0000#16 := by
  cases i
  case push src | pop src => cases src <;> simp [Instr.ignoredBits, Instr.rowMask]
  all_goals simp [Instr.ignoredBits, Instr.rowMask]

/-- No operand field of a row holds a don't-care bit. -/
theorem fieldsIn_of_ignored {w w' : Word} {i : Instr} (h : (w ^^^ w') &&& ~~~i.ignoredBits = 0x0000#16)
    (hfields : i.fieldsIn w) : i.fieldsIn w' := by
  have hfield := extractLsb'_of_ignored h
  cases i
  case ret | reti | enai | disi | stf | ldf => trivial
  case push src | pop src =>
    cases src
    all_goals simpa [Instr.fieldsIn, Instr.ignoredBits, hfield] using hfields
  all_goals simpa [Instr.fieldsIn, Instr.ignoredBits, hfield] using hfields

/-- Settles O2: another word of the same fixed bits and operands lies in the same row. -/
theorem acceptedWordsLieInTheirRow : Obligations.AcceptedWordsLieInTheirRow := by
  intro w i h
  obtain ⟨hwf, hrow, hfields⟩ := inRow_of_decode h
  refine ⟨hwf, hrow, hfields, decodeOfEncodeIsIdentity i hwf,
    fun w' hignored => decode_of_inRow ⟨hwf, ?row, ?fields⟩⟩
  case row => exact (and_eq_of_ignored hignored (ignoredBits_and_rowMask i)).trans hrow
  case fields => exact fieldsIn_of_ignored hignored hfields

/-! ### The words that are no instruction (30_encoding.md R100 to R103) -/

/-- The words of each undefined class. -/
def UndefinedAs (w : Word) : DecodeError → Prop
  | .unassignedOpcode => opcodeField w = 0b11000#5 ∨ opcodeField w = 0b11011#5
  | .undefinedInterruptWord => opcodeField w = 0b11001#5 ∧
      (raBits w ≠ 0b111#3 ∨ condField w = 0b101#3 ∨ condField w = 0b110#3 ∨ condField w = 0b111#3)
  | .undefinedStackWord => (opcodeField w = 0b00001#5 ∨ opcodeField w = 0b01001#5) ∧ imm5Field w ≠ 0b00001#5
  | .undefinedShiftWord => (opcodeField w = 0b11111#5 ∨ opcodeField w = 0b11101#5 ∨ opcodeField w = 0b11100#5) ∧
      w.getLsbD 4 = true

theorem shiftFixedBit_eq_zero_iff (w : Word) : shiftFixedBit w = 0#1 ↔ w.getLsbD 4 = false := by
  have hbit : shiftFixedBit w = BitVec.ofBool (w.getLsbD 4) := by
    apply BitVec.eq_of_getLsbD_eq
    intro k hk
    obtain rfl : k = 0 := by omega
    simp [shiftFixedBit]
  rw [hbit]
  cases w.getLsbD 4 <;> decide

theorem decodeShift_error {make : Reg → Reg → Nat → Instr} {w : Word} {e : DecodeError} :
    decodeShift make w = .error e ↔ e = .undefinedShiftWord ∧ w.getLsbD 4 = true := by
  unfold decodeShift
  split
  · next hbit => rw [(shiftFixedBit_eq_zero_iff w).mp hbit]; simp
  · next hbit =>
    rw [(Bool.not_eq_false _).mp ((shiftFixedBit_eq_zero_iff w).not.mp hbit)]
    simp [eq_comm]

theorem decodeStack_error {make : StackReg → Instr} {w : Word} {e : DecodeError} :
    decodeStack make w = .error e ↔ e = .undefinedStackWord ∧ imm5Field w ≠ 0b00001#5 := by
  unfold decodeStack
  split
  · next hlow => simp [hlow]
  · next hlow => simp [hlow, eq_comm]

theorem decodeInterrupt_error {w : Word} {e : DecodeError} :
    decodeInterrupt w = .error e ↔ e = .undefinedInterruptWord ∧
      (raBits w ≠ 0b111#3 ∨ condField w = 0b101#3 ∨ condField w = 0b110#3 ∨ condField w = 0b111#3) := by
  unfold decodeInterrupt
  split
  · next hra =>
    split
    case h_6 =>
      have hcond : (condField w).toNat = 5 ∨ (condField w).toNat = 6 ∨ (condField w).toNat = 7 := by
        have hlt := (condField w).isLt
        simp only [imp_false] at *
        omega
      obtain hcond | hcond | hcond := hcond <;> simp [eq_ofNat_of_toNat hcond, eq_comm]
    all_goals
      rename_i hcond
      simp [hra, eq_ofNat_of_toNat hcond]
  · next hra => simp [hra, eq_comm]

theorem decode_error {w : Word} {e : DecodeError} : decode w = .error e ↔ UndefinedAs w e := by
  unfold decode
  split
  case h_31 =>
    have hop : (opcodeField w).toNat = 24 ∨ (opcodeField w).toNat = 27 := by
      have hlt := (opcodeField w).isLt
      simp only [imp_false] at *
      omega
    obtain hop | hop := hop <;> cases e <;> simp [UndefinedAs, eq_ofNat_of_toNat hop]
  all_goals
    rename_i hop
    have hopcode := eq_ofNat_of_toNat hop
    cases e <;> simp [UndefinedAs, hopcode, decodeShift_error, decodeStack_error, decodeInterrupt_error]

/-- Settles O3. -/
theorem undefinedWordsAreExactlyThese : Obligations.UndefinedWordsAreExactlyThese :=
  fun _ => ⟨decode_error, decode_error, decode_error, decode_error⟩

/-- Settles O4: each word lies in its instruction's row. -/
theorem sampleWordsDecode : Obligations.SampleWordsDecode := by
  refine ⟨?_, ?_, ?_, ?_, ?_, ?_, ?_⟩ <;> rfl

end Sys2Proof
end

section
/-! Addresses as sums of words, what a state update leaves alone, and the instructions that follow from the two at once:
the control transfers, the byte loads and the interrupt enable. -/

namespace Sys2Proof.Machine

open Sys2Proof

/-! ### Addresses (20_memory.md R51; 43_control_transfer.md R190 d) -/

theorem trunc16_toNat_add (a : Word) (n : Int) : trunc16 (a.toNat + n) = a + BitVec.ofInt 16 n := by
  rw [trunc16, BitVec.ofInt_add, BitVec.ofInt_natCast, BitVec.ofNat_toNat, BitVec.setWidth_eq]

@[simp] theorem nextAddress_eq (a : Word) : nextAddress a = a + 1#16 := by
  rw [nextAddress, trunc16_toNat_add]; rfl

@[simp] theorem previousAddress_eq (a : Word) : previousAddress a = a - 1#16 := by
  rw [previousAddress, Int.sub_eq_add_neg, trunc16_toNat_add, BitVec.sub_eq_add_neg]; rfl

@[simp] theorem effectiveAddress_eq (base : Word) (imm : BitVec 5) :
    effectiveAddress base imm = base + imm.signExtend 16 := by
  rw [effectiveAddress, trunc16_toNat_add, BitVec.ofInt_toInt, sext5]

@[simp] theorem branchTarget_eq (pc : Word) (imm : BitVec 8) : branchTarget pc imm = pc + imm.signExtend 16 := by
  rw [branchTarget, trunc16_toNat_add, BitVec.ofInt_toInt, sext8]

/-- Settles O5: sign extension keeps the value of an offset, and the sum is reduced last. -/
theorem addressesAddTheSignedOffset : Obligations.AddressesAddTheSignedOffset := by
  intro base short long
  have hshort : (sext5 short).toInt = short.toInt := BitVec.toInt_signExtend_of_le (by decide)
  have hlong : (sext8 long).toInt = long.toInt := BitVec.toInt_signExtend_of_le (by decide)
  constructor
  · rw [effectiveAddress, hshort, trunc16, BitVec.toNat_ofInt]; omega
  · rw [branchTarget, hlong, trunc16, BitVec.toNat_ofInt]; omega

/-! ### What an update leaves alone -/

theorem onlyRegister_setReg {s t : State} {rd : Reg} {v : Word} (h : t.regs = s.regs.set rd v) :
    OnlyRegister rd v s t := by
  have hreg (q : Reg) : t.reg q = if q = rd then v else s.reg q :=
    (congrArg (Regs.get · q) h).trans (State.reg_setReg s rd q v)
  exact ⟨by simp [hreg], fun q hq => by simp [hreg, hq]⟩

theorem otherRegisters_setReg {s t : State} {rd : Reg} {v : Word} (h : t.regs = s.regs.set rd v) :
    OtherRegisters rd s t :=
  (onlyRegister_setReg h).2

theorem sameRegisters_of_regs {s t : State} (h : t.regs = s.regs) : SameRegisters s t :=
  fun r => congrArg (Regs.get · r) h

theorem sameMemory_of_mem {s t : State} (h : t.mem = s.mem) : SameMemory s t :=
  fun a => congrArg (Memory.read · a) h

/-! ### Control transfer (43_control_transfer.md R191 to R198) -/

/-- A branch changes PC alone. -/
theorem branchIf_eq (taken : Bool) (imm : BitVec 8) (s : State) :
    branchIf taken imm s =
      .next { s with pc := if taken = true then s.pc + imm.signExtend 16 else s.pc + 1#16 } := by
  cases taken <;> simp [branchIf, State.advance, State.setPc]

/-- Settles O31. -/
theorem brAndBwlAddTheOffset : Obligations.BrAndBwlAddTheOffset := by
  intro imm s
  exact ⟨branchIf_eq true imm s, by simp [exec, execBwl, State.setLr, State.setPc]⟩

/-- Settles O32. -/
theorem bneAndBeTestZ : Obligations.BneAndBeTestZ := by
  intro imm s
  refine ⟨(branchIf_eq (!s.flags.z) imm s).trans ?_, branchIf_eq s.flags.z imm s⟩
  simp

/-- Settles O33. -/
theorem bltAndBgeCompareNV : Obligations.BltAndBgeCompareNV := by
  intro imm s
  refine ⟨(branchIf_eq (s.flags.n != s.flags.v) imm s).trans ?_,
    (branchIf_eq (!(s.flags.n != s.flags.v)) imm s).trans ?_⟩ <;> simp

/-- Settles O34. -/
theorem retAndJmpSetPc : Obligations.RetAndJmpSetPc := by
  intro ra imm s
  exact ⟨rfl, by simp [exec, execJmp, State.setPc]⟩

/-! ### ENAI, DISI and the stack pointer as an operand -/

/-- Settles O41. -/
theorem enaiAndDisiWriteIe : Obligations.EnaiAndDisiWriteIe := by
  intro s
  constructor <;> simp [exec, execEnai, execDisi, State.setIe, State.advance, State.setPc]

/-- Settles O37. -/
theorem stackPointerOperandIsRefused : Obligations.StackPointerOperandIsRefused :=
  fun _ => ⟨rfl, rfl⟩

/-! ### LUI and LLI (42_data_transfer.md R183 to R185) -/

theorem toNat_upperByte (imm : BitVec 8) : (upperByte imm).toNat = imm.toNat * 256 := by
  rw [upperByte, BitVec.toNat_append, BitVec.toNat_ofNat, Nat.zero_mod, Nat.or_zero, Nat.shiftLeft_eq]

theorem getLsbD_upperHalf (w : Word) {k : Nat} (hk : ¬k < 8) : (w.extractLsb' 8 8).getLsbD (k - 8) = w.getLsbD k := by
  rw [BitVec.getLsbD_extractLsb', Nat.add_sub_cancel' (Nat.le_of_not_lt hk)]
  by_cases hhigh : k < 16
  · simp [show k - 8 < 8 by omega]
  · simp [BitVec.getLsbD_of_ge w k (Nat.le_of_not_lt hhigh)]

theorem getLsbD_replaceLowerByte (old : Word) (imm : BitVec 8) (k : Nat) :
    (replaceLowerByte old imm).getLsbD k = if k < 8 then imm.getLsbD k else old.getLsbD k := by
  rw [replaceLowerByte, BitVec.getLsbD_append]
  split
  · rfl
  · next hk => exact getLsbD_upperHalf old hk

theorem getLsbD_upperByte (imm : BitVec 8) {k : Nat} (hk : ¬k < 8) :
    (upperByte imm).getLsbD k = imm.getLsbD (k - 8) := by
  rw [upperByte, BitVec.getLsbD_append, if_neg hk]

/-- The lower byte replaces the zeros that came with the upper byte. -/
theorem replaceLowerByte_upperByte (k : Word) :
    replaceLowerByte (upperByte (k.extractLsb' 8 8)) (k.extractLsb' 0 8) = k := by
  apply BitVec.eq_of_getLsbD_eq
  intro i hi
  rw [getLsbD_replaceLowerByte]
  split
  · next hlow => simp [hlow]
  · next hhigh => rw [getLsbD_upperByte _ hhigh, getLsbD_upperHalf k hhigh]

theorem dataFrame_setReg_advance (s : State) (rd : Reg) (v : Word) : DataFrame s (s.setReg rd v).advance :=
  ⟨⟨rfl, rfl, rfl, rfl, rfl, rfl, rfl⟩, sameMemory_of_mem rfl, rfl, nextAddress_eq s.pc⟩

/-- Settles O28. -/
theorem luiLoadsTheUpperByte : Obligations.LuiLoadsTheUpperByte := by
  intro rd imm s
  refine ⟨_, rfl, otherRegisters_setReg rfl, ?_, rfl, dataFrame_setReg_advance s rd _, rfl⟩
  simp [toNat_upperByte]

/-- Settles O29. -/
theorem lliReplacesTheLowerByte : Obligations.LliReplacesTheLowerByte := by
  intro rd imm s
  refine ⟨_, rfl, otherRegisters_setReg rfl, ?low, ?high, rfl, dataFrame_setReg_advance s rd _, rfl⟩
  case low => intro k hk; simp [getLsbD_replaceLowerByte, hk]
  case high => intro k hk; simp [getLsbD_replaceLowerByte, Nat.not_lt.mpr hk]

/-- Settles O30. -/
theorem luiThenLliBuildsAnyConstant : Obligations.LuiThenLliBuildsAnyConstant := by
  intro rd k s
  refine ⟨_, _, rfl, rfl, ⟨?value, ?others⟩, rfl, ?pc⟩
  case value => simp [replaceLowerByte_upperByte]
  case others => intro q hq; simp [State.reg_setReg, hq]
  case pc => simp [BitVec.add_assoc]

end Sys2Proof.Machine
end

section
/-! The arithmetic instructions (40_arithmetic.md R130 to R147): the result, V and C of an add and of a subtract, once for
every operand and carry; then each instruction is the add or the subtract of its row of R130. -/

namespace Sys2Proof.Machine

open Sys2Proof

/-! ### Results (40_arithmetic.md R130) -/

theorem carryNat_eq (cin : Bool) : carryNat cin = cin.toNat := by cases cin <;> rfl

theorem addResult_eq (x y : Word) (cin : Bool) : addResult x y cin = x + y + BitVec.ofNat 16 cin.toNat := by
  apply BitVec.eq_of_toNat_eq
  simp only [addResult, trunc16, carryNat_eq, BitVec.toNat_ofInt, BitVec.toNat_add, BitVec.toNat_ofNat]
  omega

theorem subResult_eq (x y : Word) (cin : Bool) : subResult x y cin = x - y - BitVec.ofNat 16 cin.toNat := by
  apply BitVec.eq_of_toNat_eq
  have hcin : cin.toNat < 2 := Bool.toNat_lt cin
  simp only [subResult, trunc16, carryNat_eq, BitVec.toNat_ofInt, BitVec.toNat_sub, BitVec.toNat_ofNat]
  omega

theorem negResult_eq (x : Word) : negResult x = -x := by
  apply BitVec.eq_of_toNat_eq
  simp only [negResult, trunc16, BitVec.toNat_ofInt, BitVec.toNat_neg]
  omega

/-- The signed result of an add is the exact signed sum reduced to 16 bits. -/
theorem toInt_addResult (x y : Word) (cin : Bool) :
    (addResult x y cin).toInt = (x.toInt + (y.toInt + cin.toNat)).bmod 65536 := by
  have hexact : addResult x y cin = BitVec.ofInt 16 (x.toInt + (y.toInt + cin.toNat)) := by
    rw [addResult_eq, BitVec.ofInt_add, BitVec.ofInt_add, BitVec.ofInt_toInt, BitVec.ofInt_toInt, BitVec.ofInt_natCast,
      BitVec.add_assoc]
  rw [hexact, BitVec.toInt_ofInt]

/-- The signed result of a subtract is the exact signed difference reduced to 16 bits. -/
theorem toInt_subResult (x y : Word) (cin : Bool) :
    (subResult x y cin).toInt = (x.toInt + (-y.toInt - cin.toNat)).bmod 65536 := by
  have hexact : subResult x y cin = BitVec.ofInt 16 (x.toInt + (-y.toInt - cin.toNat)) := by
    rw [subResult_eq, Int.sub_eq_add_neg, BitVec.ofInt_add, BitVec.ofInt_add, BitVec.ofInt_neg, BitVec.ofInt_neg,
      BitVec.ofInt_toInt, BitVec.ofInt_toInt, BitVec.ofInt_natCast, BitVec.sub_eq_add_neg, BitVec.sub_eq_add_neg,
      BitVec.add_assoc]
  rw [hexact, BitVec.toInt_ofInt]

/-! ### V (40_arithmetic.md R132) -/

/-- Outside the two open cases the printed formula, on a result reduced to 16 bits, is signed overflow. -/
theorem overflowFlag_iff {a b r : Int} (ha : -32768 ≤ a ∧ a ≤ 32767) (hb : -32768 ≤ b ∧ b ≤ 32768)
    (hr : r = (a + b).bmod 65536) (hopen : ¬FlagVOpen a b) (draw : Bool) :
    overflowFlag a b r draw = true ↔ a + b < -32768 ∨ 32767 < a + b := by
  have hclosed : overflowOpen a b = false := decide_eq_false hopen
  rw [overflowFlag, hclosed, if_neg Bool.false_ne_true, printedOverflow, decide_eq_true_iff, hr, Int.bmod_def]
  unfold FlagVOpen at hopen
  split <;> omega

theorem toInt_bounds (x : Word) : -32768 ≤ x.toInt ∧ x.toInt ≤ 32767 :=
  ⟨BitVec.le_toInt x, Int.le_of_lt_add_one (BitVec.toInt_lt (x := x))⟩

theorem carry_bounds (cin : Bool) : 0 ≤ (cin.toNat : Int) ∧ (cin.toNat : Int) ≤ 1 := by cases cin <;> decide

theorem addFlags_v (x y : Word) (cin draw : Bool) (hopen : ¬FlagVOpen x.toInt (y.toInt + cin.toNat)) :
    FlagVOverflow x.toInt (y.toInt + cin.toNat) (addFlags x y cin draw) := by
  have hy := toInt_bounds y
  have hcin := carry_bounds cin
  have h := overflowFlag_iff (toInt_bounds x) ⟨by omega, by omega⟩ (toInt_addResult x y cin) hopen draw
  simpa only [FlagVOverflow, addFlags, addAddend, carryNat_eq] using h

theorem subFlags_v (setting : Config.SubCarry) (x y : Word) (cin drawV drawC : Bool)
    (hopen : ¬FlagVOpen x.toInt (-y.toInt - cin.toNat)) :
    FlagVOverflow x.toInt (-y.toInt - cin.toNat) (subFlags setting x y cin drawV drawC) := by
  have hy := toInt_bounds y
  have hcin := carry_bounds cin
  have h := overflowFlag_iff (toInt_bounds x) ⟨by omega, by omega⟩ (toInt_subResult x y cin) hopen drawV
  simpa only [FlagVOverflow, subFlags, subAddend, carryNat_eq] using h

/-- The open cases need the addend -32768 or 32768. -/
theorem not_flagVOpen {a b : Int} (hlow : -32768 < b) (hhigh : b < 32768) : ¬FlagVOpen a b := by
  unfold FlagVOpen
  omega

/-! ### C (40_arithmetic.md R133, R134) -/

theorem addCarry_iff (x y : Word) (cin : Bool) :
    addCarry x y cin = true ↔ 65535 < x.toNat + y.toNat + cin.toNat := by
  rw [addCarry, decide_eq_true_iff, carryNat_eq]

theorem subFlags_c (setting : Config.SubCarry) (x y : Word) (cin drawV drawC : Bool) :
    FlagCSubtract setting x.toNat (y.toNat + cin.toNat) (subFlags setting x y cin drawV drawC) := by
  refine ⟨?zero, ?notBorrow, ?borrow⟩ <;> rintro rfl
  case zero => rfl
  case notBorrow => exact decide_eq_true_iff.trans (by rw [carryNat_eq])
  case borrow => exact decide_eq_true_iff.trans (by rw [carryNat_eq])

/-! ### N and Z (40_arithmetic.md R131) -/

theorem flagsNZ_of_eq {r : Word} {f : Flags} (hn : f.n = negativeFlag r) (hz : f.z = zeroFlag r) : FlagsNZ r f :=
  ⟨hn ▸ negativeFlag_iff r, hz ▸ zeroFlag_iff r⟩

/-! ### The shared shapes -/

/-- The outcome is the next state of an add of `x`, `y` and a carry into `rd`. -/
def AddsInto (rd : Reg) (x y : Word) (carry : Nat) (s : State) (o : Host.Outcome State Fault Refusal) : Prop :=
  ∃ t, o = .next t ∧ OnlyRegister rd (x + y + BitVec.ofNat 16 carry) s t ∧
    FlagsNZ (x + y + BitVec.ofNat 16 carry) t.flags ∧
    (¬FlagVOpen x.toInt (y.toInt + carry) → FlagVOverflow x.toInt (y.toInt + carry) t.flags) ∧
    (t.flags.c = true ↔ 65535 < x.toNat + y.toNat + carry) ∧ DataFrame s t

/-- What a subtraction of `y` and a borrow from `x` leaves in the flags and the frame. -/
def SubtractsFlags (x y : Word) (borrow : Nat) (s t : State) : Prop :=
  FlagsNZ (x - y - BitVec.ofNat 16 borrow) t.flags ∧
    (¬FlagVOpen x.toInt (-y.toInt - borrow) → FlagVOverflow x.toInt (-y.toInt - borrow) t.flags) ∧
    FlagCSubtract s.subCarry x.toNat (y.toNat + borrow) t.flags ∧ DataFrame s t

/-- The flags and PC are written after the register, and nothing else is. -/
theorem dataFrame_flags (s : State) (rs : Regs) (f : Flags) :
    DataFrame s ((({ s with regs := rs } : State).setFlags f).spendDraws).advance :=
  ⟨⟨rfl, rfl, rfl, rfl, rfl, rfl, rfl⟩, sameMemory_of_mem rfl, rfl, nextAddress_eq s.pc⟩

theorem addInto_addsInto (rd : Reg) (x y : Word) (cin : Bool) (s : State) :
    AddsInto rd x y cin.toNat s (addInto rd x y cin s) := by
  refine ⟨_, rfl, ?register, ?nz, addFlags_v x y cin s.drawV, addCarry_iff x y cin, dataFrame_flags s _ _⟩
  case register => exact onlyRegister_setReg (by rw [← addResult_eq]; rfl)
  case nz => rw [← addResult_eq]; exact flagsNZ_of_eq rfl rfl

theorem subFlags_subtractsFlags (x y : Word) (cin : Bool) (s : State) (rs : Regs) :
    SubtractsFlags x y cin.toNat s ((({ s with regs := rs } : State).setFlags
      (subFlags s.subCarry x y cin s.drawV s.drawC)).spendDraws).advance := by
  refine ⟨?nz, subFlags_v _ x y cin _ _, subFlags_c _ x y cin _ _, dataFrame_flags s _ _⟩
  rw [← subResult_eq]
  exact flagsNZ_of_eq rfl rfl

theorem subInto_subtracts (rd : Reg) (x y : Word) (cin : Bool) (s : State) :
    ∃ t, subInto rd x y cin s = .next t ∧ OnlyRegister rd (x - y - BitVec.ofNat 16 cin.toNat) s t ∧
      SubtractsFlags x y cin.toNat s t :=
  ⟨_, rfl, onlyRegister_setReg (by rw [← subResult_eq]; rfl), subFlags_subtractsFlags x y cin s _⟩

theorem compareWords_subtracts (x y : Word) (s : State) :
    ∃ t, compareWords x y s = .next t ∧ SameRegisters s t ∧ SubtractsFlags x y 0 s t :=
  ⟨_, rfl, sameRegisters_of_regs rfl, subFlags_subtractsFlags x y false s s.regs⟩

/-! ### ADD to NEG (40_arithmetic.md R135 to R140) -/

/-- Settles O10. -/
theorem addWritesSumAndFlags : Obligations.AddWritesSumAndFlags := by
  intro rd ra rb s
  simpa [AddsInto, exec, execAdd] using addInto_addsInto rd (s.reg ra) (s.reg rb) false s

/-- Settles O11. -/
theorem adcAddsTheOldCarry : Obligations.AdcAddsTheOldCarry := by
  intro rd ra rb s
  exact addInto_addsInto rd (s.reg ra) (s.reg rb) s.flags.c s

/-- An immediate keeps its value, which with a carry is far from the open cases. -/
theorem sext5_toInt (imm : BitVec 5) : (sext5 imm).toInt = imm.toInt ∧ -16 ≤ imm.toInt ∧ imm.toInt < 16 :=
  ⟨BitVec.toInt_signExtend_of_le (by decide), BitVec.le_toInt imm, BitVec.toInt_lt⟩

theorem sext8_toInt (imm : BitVec 8) : (sext8 imm).toInt = imm.toInt ∧ -128 ≤ imm.toInt ∧ imm.toInt < 128 :=
  ⟨BitVec.toInt_signExtend_of_le (by decide), BitVec.le_toInt imm, BitVec.toInt_lt⟩

/-- An add of a short signed addend: V is signed overflow for every operand. -/
theorem addInto_immediate (rd : Reg) (x y : Word) (cin : Bool) (s : State) {n : Int} (hvalue : y.toInt = n)
    (hlow : -128 ≤ n) (hhigh : n < 128) :
    ∃ t, addInto rd x y cin s = .next t ∧ OnlyRegister rd (x + y + BitVec.ofNat 16 cin.toNat) s t ∧
      FlagsNZ (x + y + BitVec.ofNat 16 cin.toNat) t.flags ∧ FlagVOverflow x.toInt (n + cin.toNat) t.flags ∧
      (t.flags.c = true ↔ 65535 < x.toNat + y.toNat + cin.toNat) ∧ DataFrame s t := by
  subst hvalue
  have hcin := carry_bounds cin
  obtain ⟨t, hnext, hreg, hnz, hv, hc, hframe⟩ := addInto_addsInto rd x y cin s
  exact ⟨t, hnext, hreg, hnz, hv (not_flagVOpen (by omega) (by omega)), hc, hframe⟩

/-- Settles O12. -/
theorem addImmediatesSignExtend : Obligations.AddImmediatesSignExtend := by
  intro rd ra imm byte s
  obtain ⟨hshort, hshortLow, hshortHigh⟩ := sext5_toInt imm
  obtain ⟨hlong, hlongLow, hlongHigh⟩ := sext8_toInt byte
  refine ⟨?addi, ?addib, ?adci⟩
  case addi =>
    simpa [exec, execAddi, sext5] using
      addInto_immediate rd (s.reg ra) (sext5 imm) false s hshort (by omega) (by omega)
  case addib =>
    simpa [exec, execAddib, sext8] using addInto_immediate rd (s.reg rd) (sext8 byte) false s hlong hlongLow hlongHigh
  case adci => exact addInto_immediate rd (s.reg ra) (sext5 imm) s.flags.c s hshort (by omega) (by omega)

/-- Settles O13. -/
theorem negWritesNegationAndClearsVC : Obligations.NegWritesNegationAndClearsVC := by
  intro rd ra s
  refine ⟨_, rfl, onlyRegister_setReg (by rw [← negResult_eq]; rfl), ?nz, rfl, rfl, ?frame, rfl⟩
  case nz => rw [← negResult_eq]; exact flagsNZ_of_eq rfl rfl
  case frame => exact ⟨⟨rfl, rfl, rfl, rfl, rfl, rfl, rfl⟩, sameMemory_of_mem rfl, rfl, nextAddress_eq s.pc⟩

/-! ### SUB to CMPI (40_arithmetic.md R141 to R147) -/

/-- Without a borrow. -/
theorem SubtractsFlags.noBorrow {x y : Word} {s t : State} (h : SubtractsFlags x y 0 s t) :
    FlagsNZ (x - y) t.flags ∧ (¬FlagVOpen x.toInt (-y.toInt) → FlagVOverflow x.toInt (-y.toInt) t.flags) ∧
      FlagCSubtract s.subCarry x.toNat y.toNat t.flags ∧ DataFrame s t := by
  simpa [SubtractsFlags] using h

/-- A subtraction of a short signed number: V is signed overflow for every operand. -/
theorem SubtractsFlags.immediate {x y : Word} {borrow : Bool} {s t : State} {n : Int}
    (h : SubtractsFlags x y borrow.toNat s t) (hvalue : y.toInt = n) (hlow : -128 ≤ n) (hhigh : n < 128) :
    FlagsNZ (x - y - BitVec.ofNat 16 borrow.toNat) t.flags ∧ FlagVOverflow x.toInt (-n - borrow.toNat) t.flags ∧
      FlagCSubtract s.subCarry x.toNat (y.toNat + borrow.toNat) t.flags ∧ DataFrame s t := by
  subst hvalue
  have hborrow := carry_bounds borrow
  obtain ⟨hnz, hv, hc, hframe⟩ := h
  exact ⟨hnz, hv (not_flagVOpen (by omega) (by omega)), hc, hframe⟩

/-- Without a borrow. -/
theorem SubtractsFlags.immediate_noBorrow {x y : Word} {s t : State} {n : Int} (h : SubtractsFlags x y 0 s t)
    (hvalue : y.toInt = n) (hlow : -128 ≤ n) (hhigh : n < 128) :
    FlagsNZ (x - y) t.flags ∧ FlagVOverflow x.toInt (-n) t.flags ∧
      FlagCSubtract s.subCarry x.toNat y.toNat t.flags ∧ DataFrame s t := by
  simpa using SubtractsFlags.immediate (borrow := false) h hvalue hlow hhigh

theorem subInto_subtracts_noBorrow (rd : Reg) (x y : Word) (s : State) :
    ∃ t, subInto rd x y false s = .next t ∧ OnlyRegister rd (x - y) s t ∧ SubtractsFlags x y 0 s t := by
  simpa using subInto_subtracts rd x y false s

/-- Settles O14. -/
theorem subWritesDifferenceAndFlags : Obligations.SubWritesDifferenceAndFlags := by
  intro rd ra rb imm s
  constructor
  · obtain ⟨t, hnext, hreg, hflags⟩ := subInto_subtracts_noBorrow rd (s.reg ra) (s.reg rb) s
    exact ⟨t, hnext, hreg, hflags.noBorrow⟩
  · obtain ⟨hvalue, hlow, hhigh⟩ := sext5_toInt imm
    obtain ⟨t, hnext, hreg, hflags⟩ := subInto_subtracts_noBorrow rd (s.reg ra) (sext5 imm) s
    exact ⟨t, hnext, hreg, hflags.immediate_noBorrow hvalue (by omega) (by omega)⟩

/-- Settles O15. -/
theorem sucSubtractsTheOldCarry : Obligations.SucSubtractsTheOldCarry := by
  intro rd ra rb s
  exact subInto_subtracts rd (s.reg ra) (s.reg rb) s.flags.c s

/-- Settles O16. -/
theorem subtractImmediatesSignExtend : Obligations.SubtractImmediatesSignExtend := by
  intro rd ra imm byte s
  constructor
  · obtain ⟨hvalue, hlow, hhigh⟩ := sext8_toInt byte
    obtain ⟨t, hnext, hreg, hflags⟩ := subInto_subtracts_noBorrow rd (s.reg rd) (sext8 byte) s
    exact ⟨t, hnext, hreg, hflags.immediate_noBorrow hvalue hlow hhigh⟩
  · obtain ⟨hvalue, hlow, hhigh⟩ := sext5_toInt imm
    obtain ⟨t, hnext, hreg, hflags⟩ := subInto_subtracts rd (s.reg ra) (sext5 imm) s.flags.c s
    exact ⟨t, hnext, hreg, hflags.immediate hvalue (by omega) (by omega)⟩

/-- Settles O17. -/
theorem comparesWriteOnlyFlags : Obligations.ComparesWriteOnlyFlags := by
  intro ra rb imm s
  constructor
  · obtain ⟨t, hnext, hregs, hflags⟩ := compareWords_subtracts (s.reg ra) (s.reg rb) s
    exact ⟨t, hnext, hregs, hflags.noBorrow⟩
  · obtain ⟨hvalue, hlow, hhigh⟩ := sext5_toInt imm
    obtain ⟨t, hnext, hregs, hflags⟩ := compareWords_subtracts (s.reg ra) (sext5 imm) s
    exact ⟨t, hnext, hregs, hflags.immediate_noBorrow hvalue (by omega) (by omega)⟩

/-! ### Branches after a compare (43_control_transfer.md R193 to R195) -/

/-- The open pair is 0x0000 and 0x8000: the addend -32768 would need a subtrahend of 32768. -/
theorem not_flagVOpen_of_compare {x y : Word} (h : ¬(x = 0x0000#16 ∧ y = 0x8000#16)) :
    ¬FlagVOpen x.toInt (-y.toInt) := by
  have hy := toInt_bounds y
  rintro (⟨-, hopen⟩ | ⟨hzero, hopen⟩)
  · omega
  · exact h ⟨BitVec.eq_of_toInt_eq hzero, BitVec.eq_of_toInt_eq (by rw [← Int.neg_neg y.toInt, hopen]; rfl)⟩

/-- Z after a compare. -/
theorem subFlags_z (setting : Config.SubCarry) (x y : Word) (drawV drawC : Bool) :
    (subFlags setting x y false drawV drawC).z = decide (x = y) := by
  rw [subFlags, subResult_no_borrow, zeroFlag]
  exact decide_eq_decide.mpr sub_eq_zero

/-- N and V of a subtraction differ exactly when the exact difference is negative (43_control_transfer.md R194). -/
theorem condLess_subFlags (setting : Config.SubCarry) {x y : Word} (drawV drawC : Bool)
    (h : ¬(x = 0x0000#16 ∧ y = 0x8000#16)) :
    condLess (subFlags setting x y false drawV drawC) = decide (x.toInt < y.toInt) := by
  have hv := subFlags_v setting x y false drawV drawC (by simpa using not_flagVOpen_of_compare h)
  have hn : (subFlags setting x y false drawV drawC).n = true ↔ (subResult x y false).toInt < 0 :=
    negativeFlag_iff _
  rw [toInt_subResult, Int.bmod_def] at hn
  simp only [FlagVOverflow, Bool.toNat_false] at hv hn
  have hx := toInt_bounds x
  have hy := toInt_bounds y
  rw [condLess, Bool.eq_iff_iff, bne_iff_ne, ne_eq, Bool.eq_iff_iff, hn, hv, decide_eq_true_iff]
  split <;> omega

/-- Settles O18: a branch reads the flags the compare left. -/
theorem branchAfterCompareDecidesSignedOrder : Obligations.BranchAfterCompareDecidesSignedOrder := by
  intro ra rb imm s
  refine ⟨_, rfl, ?be, fun hclosed => ⟨?blt, ?bge⟩⟩
  case be =>
    refine (branchIf_eq _ imm _).trans ?_
    simp only [State.advance_flags, State.spendDraws_flags, State.setFlags_flags, condEqual, subFlags_z,
      decide_eq_true_iff]
    rfl
  case blt =>
    refine (branchIf_eq _ imm _).trans ?_
    simp only [State.advance_flags, State.spendDraws_flags, State.setFlags_flags, condLess_subFlags _ _ _ hclosed,
      decide_eq_true_iff]
    rfl
  case bge =>
    refine (branchIf_eq _ imm _).trans ?_
    simp only [State.advance_flags, State.spendDraws_flags, State.setFlags_flags, condLess_subFlags _ _ _ hclosed,
      Bool.not_eq_true', decide_eq_false_iff_not, Int.not_lt]
    rfl

/-! ### Two-word addition -/

/-- The carry out of bit 15 is what the 16-bit sum leaves out. -/
theorem addResult_add_carry (x y : Word) (cin draw : Bool) :
    (addResult x y cin).toNat + 65536 * (addFlags x y cin draw).c.toNat = x.toNat + y.toNat + cin.toNat := by
  have hx := x.isLt
  have hy := y.isLt
  have hcin : cin.toNat < 2 := Bool.toNat_lt cin
  have hsum : (addResult x y cin).toNat = (x.toNat + y.toNat + cin.toNat) % 65536 := by
    rw [addResult_eq]
    simp only [BitVec.toNat_add, BitVec.toNat_ofNat]
    omega
  by_cases h : 65535 < x.toNat + y.toNat + cin.toNat
  · have hc : (addFlags x y cin draw).c = true := (addCarry_iff x y cin).mpr h
    rw [hsum, hc, Bool.toNat_true]
    omega
  · have hc : (addFlags x y cin draw).c = false := Bool.eq_false_iff.mpr ((addCarry_iff x y cin).not.mpr h)
    rw [hsum, hc, Bool.toNat_false]
    omega

/-- Settles O19: the high addition takes in the carry that the low one leaves out. -/
theorem addThenAdcAddsTwoWordNumbers : Obligations.AddThenAdcAddsTwoWordNumbers := by
  intro lo hi aLo aHi bLo bHi s haHi hbHi hlo
  refine ⟨_, _, rfl, rfl, ?_⟩
  have hlow := addResult_add_carry (s.reg aLo) (s.reg bLo) false s.drawV
  have hhigh := addResult_add_carry (s.reg aHi) (s.reg bHi) (addFlags (s.reg aLo) (s.reg bLo) false s.drawV).c s.drawV
  have hlt := (addResult (s.reg aHi) (s.reg bHi) (addFlags (s.reg aLo) (s.reg bLo) false s.drawV).c).isLt
  have hlt' := (addResult (s.reg aLo) (s.reg bLo) false).isLt
  simp only [State.advance_reg, State.spendDraws_reg, State.setFlags_reg, State.reg_setReg, State.advance_flags,
    State.spendDraws_flags, State.setFlags_flags, haHi.symm, hbHi.symm, hlo.symm, if_true, if_false,
    Bool.toNat_false] at hlow ⊢
  omega

end Sys2Proof.Machine
end

section
/-! The logical and the shift instructions (41_logic_shift.md R160 to R170): one lemma for what they share, one per result. -/

namespace Sys2Proof.Machine

open Sys2Proof

/-- What every logical and shift instruction does with its result: V and C are free, nothing else changes. -/
theorem logicInto_next (rd : Reg) (r : Word) (s : State) :
    ∃ t, logicInto rd r s = .next t ∧ OtherRegisters rd s t ∧ FlagsNZ (t.reg rd) t.flags ∧ DataFrame s t ∧
      t.reg rd = r ∧ t.flags.n = r.getLsbD 15 :=
  ⟨_, rfl, otherRegisters_setReg rfl, flagsNZ_of_eq (by simp [logicFlags]) (by simp [logicFlags]),
    dataFrame_flags s _ _, by simp, rfl⟩

/-- Settles O20: the result of each instruction, bit by bit. -/
theorem logicIsBitwise : Obligations.LogicIsBitwise := by
  intro rd ra rb s
  refine ⟨?and, ?or, ?xor, ?not, ?nand, ?nor⟩
  case and =>
    obtain ⟨t, hnext, hother, hnz, hframe, hreg, -⟩ := logicInto_next rd (s.reg ra &&& s.reg rb) s
    exact ⟨t, hnext, hother, hnz, hframe, fun k => by rw [hreg, BitVec.getLsbD_and]⟩
  case or =>
    obtain ⟨t, hnext, hother, hnz, hframe, hreg, -⟩ := logicInto_next rd (s.reg ra ||| s.reg rb) s
    exact ⟨t, hnext, hother, hnz, hframe, fun k => by rw [hreg, BitVec.getLsbD_or]⟩
  case xor =>
    obtain ⟨t, hnext, hother, hnz, hframe, hreg, -⟩ := logicInto_next rd (s.reg ra ^^^ s.reg rb) s
    exact ⟨t, hnext, hother, hnz, hframe, fun k => by rw [hreg, BitVec.getLsbD_xor]⟩
  case not =>
    obtain ⟨t, hnext, hother, hnz, hframe, hreg, -⟩ := logicInto_next rd (~~~(s.reg ra)) s
    exact ⟨t, hnext, hother, hnz, hframe, fun k hk => by simp [hreg, hk]⟩
  case nand =>
    obtain ⟨t, hnext, hother, hnz, hframe, hreg, -⟩ := logicInto_next rd (~~~(s.reg ra &&& s.reg rb)) s
    exact ⟨t, hnext, hother, hnz, hframe, fun k hk => by simp [hreg, hk]⟩
  case nor =>
    obtain ⟨t, hnext, hother, hnz, hframe, hreg, -⟩ := logicInto_next rd (~~~(s.reg ra ||| s.reg rb)) s
    exact ⟨t, hnext, hother, hnz, hframe, fun k hk => by simp [hreg, hk]⟩

/-! ### The arithmetic readings of the shifts, as shifts of words -/

theorem lslResult_eq (x : Word) (count : Nat) : lslResult x count = x <<< count := by
  apply BitVec.eq_of_toNat_eq
  rw [lslResult, trunc16, BitVec.toNat_shiftLeft, Nat.shiftLeft_eq, BitVec.toNat_ofInt]
  norm_cast

theorem lsrResult_eq (x : Word) (count : Nat) : lsrResult x count = x >>> count := by
  apply BitVec.eq_of_toNat_eq
  have hlt : x.toNat / 2 ^ count < 2 ^ 16 := Nat.lt_of_le_of_lt (Nat.div_le_self _ _) x.isLt
  rw [lsrResult, trunc16, BitVec.ofInt_natCast, BitVec.toNat_ofNat, Nat.mod_eq_of_lt hlt, BitVec.toNat_ushiftRight,
    Nat.shiftRight_eq_div_pow]

theorem asrResult_eq (x : Word) (count : Nat) : asrResult x count = x.sshiftRight count := by
  have hfloor : Int.fdiv x.toInt (2 ^ count) = x.toInt >>> count := by
    rw [Int.shiftRight_eq_div_pow, Int.fdiv_eq_ediv_of_nonneg _ (by positivity)]
    norm_cast
  rw [asrResult, trunc16, hfloor, ← BitVec.toInt_sshiftRight, BitVec.ofInt_toInt]

/-- Settles O21. -/
theorem logicalShiftsShiftInZeros : Obligations.LogicalShiftsShiftInZeros := by
  intro rd ra count s _
  constructor
  · obtain ⟨t, hnext, hother, hnz, hframe, hreg, -⟩ := logicInto_next rd (lslResult (s.reg ra) count) s
    refine ⟨t, hnext, hother, hnz, hframe, fun k hk => ?_⟩
    rw [hreg, lslResult_eq, BitVec.getLsbD_shiftLeft]
    simp only [hk, decide_true, Bool.true_and, ← decide_not, Nat.not_lt]
  · obtain ⟨t, hnext, hother, hnz, hframe, hreg, -⟩ := logicInto_next rd (lsrResult (s.reg ra) count) s
    refine ⟨t, hnext, hother, hnz, hframe, fun k _ => ?_⟩
    rw [hreg, lsrResult_eq, BitVec.getLsbD_ushiftRight, Nat.add_comm]

/-- Bit k of an arithmetic shift. -/
theorem getLsbD_asrResult (x : Word) (count : Nat) {k : Nat} (hk : k < 16) :
    (asrResult x count).getLsbD k = if k + count < 16 then x.getLsbD (k + count) else x.getLsbD 15 := by
  rw [asrResult_eq, BitVec.getLsbD_sshiftRight, Nat.add_comm count k, BitVec.msb_eq_getLsbD_last]
  simp [Nat.not_le.mpr hk]

/-- Settles O22: bit 15 of the result is bit 15 of the source, for every count. -/
theorem asrShiftsInTheSign : Obligations.AsrShiftsInTheSign := by
  intro rd ra count s _
  obtain ⟨t, hnext, hother, hnz, hframe, hreg, hn⟩ := logicInto_next rd (asrResult (s.reg ra) count) s
  refine ⟨t, hnext, hother, hnz, hframe, ?sign, fun k hk => ?bits⟩
  case sign =>
    rw [hn, getLsbD_asrResult _ _ (by decide)]
    split
    · next hcount => rw [show count = 0 by omega]
    · rfl
  case bits => rw [hreg, getLsbD_asrResult _ _ hk]

end Sys2Proof.Machine
end

section
/-! Loads and stores (20_memory.md R55 to R57; 42_data_transfer.md; 44_stack.md; 45_interrupt_instructions.md; 60_exceptions.md
R246, R262 to R265): what an access answers at each part of the address map, then what each accessing instruction does with
the answer, whatever was accessed; a statement about main memory or about a device is one of each. -/

namespace Sys2Proof.Machine

open Sys2Proof

/-! ### What a read answers -/

theorem memRead_mainMemory {a : Word} (h : a.toNat < 0x0800) (s : State) : memRead a s = .ok (s.mainWord a, s) := by
  rw [memRead, region_mainMemory.mpr h]

theorem memRead_switches (s : State) : memRead 0x0800#16 s = .ok (s.dev.switches, s) := rfl

theorem memRead_serialData (s : State) :
    memRead 0xA000#16 s = .ok (s.dev.serialData, { s with dev := { s.dev with serialUnread := false } }) := rfl

theorem region_unpopulated {a : Word} (h : Unpopulated a) : region a = .unmapped := by
  have hmain : ¬a.toNat < mainMemoryWords := by unfold mainMemoryWords; rcases h with h | h <;> omega
  have hne (b : Word) (hb : b.toNat < 0x0802 ∨ b.toNat = 0xA000 ∨ b.toNat = 0xA001) : a ≠ b := by
    rintro rfl
    rcases h with h | h <;> omega
  rw [region, if_neg hmain, if_neg (hne _ (.inl (by decide))), if_neg (hne _ (.inl (by decide))),
    if_neg (hne _ (.inr (.inl rfl))), if_neg (hne _ (.inr (.inr rfl)))]

theorem memRead_undescribed {a : Word} {why : Refusal} (h : LoadUndescribed a why) (s : State) :
    memRead a s = .error why := by
  obtain ⟨hunpopulated, rfl⟩ | ⟨rfl, rfl⟩ | ⟨rfl, rfl⟩ := h
  · rw [memRead, region_unpopulated hunpopulated]
  · rfl
  · rfl

/-- A word that was written is what a read gives. -/
theorem mainWord_of_word {s : State} {a v : Word} (h : s.word a = some v) : s.mainWord a = v := by
  rw [State.mainWord, show s.mem.read a = some v from h]

theorem readsAs_mainWord (s : State) (a : Word) : s.ReadsAs a (s.mainWord a) :=
  fun _ h => mainWord_of_word h

/-! ### What a write answers -/

theorem memWrite_mainMemory {a : Word} (h : a.toNat < 0x0800) (v : Word) (s : State) :
    memWrite a v s = .ok { s with mem := s.mem.write a v } := by
  rw [memWrite, region_mainMemory.mpr h]

theorem memWrite_leds (v : Word) (s : State) :
    memWrite 0x0801#16 v s = .ok { s with dev := { s.dev with leds := v } } := rfl

theorem memWrite_serialControl (s : State) :
    memWrite 0xA001#16 0x0001#16 s = .ok { s with dev := { s.dev with serialIntEnable := true } } := rfl

theorem memWrite_undescribed {a v : Word} {why : Refusal} (h : StoreUndescribed a v why) (s : State) :
    memWrite a v s = .error why := by
  obtain ⟨hunpopulated, rfl⟩ | ⟨rfl, rfl⟩ | ⟨rfl, rfl⟩ | ⟨rfl, hvalue, rfl⟩ := h
  · rw [memWrite, region_unpopulated hunpopulated]
  · rfl
  · rfl
  · exact if_neg hvalue

theorem word_of_write {s t : State} {a v : Word} (h : t.mem = s.mem.write a v) : t.word a = some v := by
  rw [State.word, h, Memory.read_write_same]

theorem sameMemoryExcept_of_write {s t : State} {a v : Word} (h : t.mem = s.mem.write a v) :
    SameMemoryExcept a s t := fun b hb => by
  rw [State.word, h, Memory.read_write_ne _ _ _ _ hb, State.word]

/-! ### The stack -/

theorem pushWord_eq (v : Word) (s : State) :
    pushWord v s = memWrite (s.reg .r7 - 1#16) v (s.setReg .r7 (s.reg .r7 - 1#16)) := by
  rw [pushWord, previousAddress_eq]; rfl

theorem pushWord_mainMemory {s : State} (h : (s.reg .r7 - 1#16).toNat < 0x0800) (v : Word) :
    pushWord v s = .ok { s.setReg .r7 (s.reg .r7 - 1#16) with mem := s.mem.write (s.reg .r7 - 1#16) v } := by
  rw [pushWord_eq, memWrite_mainMemory h]; rfl

/-- A push one above the LEDs or, of 0x0001, one above the serial control register. -/
theorem pushWord_device {s : State} {v : Word} {d : Device}
    (h : s.reg .r7 = 0x0802#16 ∧ d = { s.dev with leds := v } ∨
      s.reg .r7 = 0xA002#16 ∧ v = 0x0001#16 ∧ d = { s.dev with serialIntEnable := true }) :
    pushWord v s = .ok { s.setReg .r7 (s.reg .r7 - 1#16) with dev := d } := by
  rw [pushWord_eq]
  obtain ⟨hsp, rfl⟩ | ⟨hsp, rfl, rfl⟩ := h
  · rw [hsp, show 0x0802#16 - 1#16 = 0x0801#16 by decide, memWrite_leds]; rfl
  · rw [hsp, show 0xA002#16 - 1#16 = 0xA001#16 by decide, memWrite_serialControl]; rfl

theorem pushWord_undescribed {s : State} {v : Word} {why : Refusal} (h : StoreUndescribed (s.reg .r7 - 1#16) v why) :
    pushWord v s = .error why := by
  rw [pushWord_eq, memWrite_undescribed h]

theorem popWord_ok {s t : State} {v : Word} (h : memRead (s.reg .r7) s = .ok (v, t)) :
    popWord s = .ok (v, t.setReg .r7 (s.reg .r7 + 1#16)) := by
  rw [popWord, State.sp, h, nextAddress_eq]; rfl

theorem popWord_undescribed {s : State} {why : Refusal} (h : LoadUndescribed (s.reg .r7) why) :
    popWord s = .error why := by
  rw [popWord, State.sp, memRead_undescribed h]

/-! ### What an instruction that loads does with the word -/

/-- What neither a load nor a store by an instruction changes: IE, the draw counter and what no instruction writes. -/
def AccessFrame (s t : State) : Prop := t.ie = s.ie ∧ SameConstants s t ∧ t.draws = s.draws

/-- What a load leaves alone besides. -/
def LoadFrame (d : Device) (s t : State) : Prop := t.dev = d ∧ SameMemory s t ∧ AccessFrame s t

theorem loadFrame_of_fields {d : Device} {s t : State} (hdev : t.dev = d) (hmem : t.mem = s.mem) (hie : t.ie = s.ie)
    (hconstants : SameConstants s t) (hdraws : t.draws = s.draws) : LoadFrame d s t :=
  ⟨hdev, sameMemory_of_mem hmem, hie, hconstants, hdraws⟩

theorem afterLoad_ok {a v : Word} {t : State} {r : Except Refusal (Word × State)} (h : r = .ok (v, t))
    (use : Word → State → State) : afterLoad a r use = .next (use v (t.setAluOut a)) := by
  rw [h]; rfl

section
variable {s : State} {v : Word} {d : Device}

theorem execLdw_next (rd : Reg) {ra : Reg} {imm : BitVec 5}
    (h : memRead (effectiveAddress (s.reg ra) imm) s = .ok (v, { s with dev := d })) :
    ∃ t, exec (.ldw rd ra imm) s = .next t ∧ OnlyRegister rd v s t ∧ t.flags = s.flags ∧ t.lr = s.lr ∧
      t.pc = s.pc + 1#16 ∧ LoadFrame d s t := by
  refine ⟨_, afterLoad_ok h fun w u => (u.setReg rd w).advance, onlyRegister_setReg rfl, rfl, rfl, nextAddress_eq s.pc, ?_⟩
  exact loadFrame_of_fields rfl rfl rfl ⟨rfl, rfl, rfl, rfl⟩ rfl

theorem execPop_gpr_next (h : memRead (s.reg .r7) s = .ok (v, { s with dev := d })) {r : Reg} (hr : r ≠ .r7) :
    ∃ t, exec (.pop (.gpr r)) s = .next t ∧ t.reg r = v ∧ t.reg .r7 = s.reg .r7 + 1#16 ∧
      (∀ q : Reg, q ≠ r → q ≠ .r7 → t.reg q = s.reg q) ∧ t.flags = s.flags ∧ t.lr = s.lr ∧ t.pc = s.pc + 1#16 ∧
      LoadFrame d s t := by
  refine ⟨_, (if_neg (by simpa using hr)).trans (afterLoad_ok (popWord_ok h) _), ?value, ?pointer,
    fun q hq hq' => ?others, rfl, rfl, nextAddress_eq s.pc, ?frame⟩
  case value => simp [State.setStackReg]
  case pointer => simp [State.setStackReg, State.reg_setReg, hr.symm]
  case others => simp [State.setStackReg, State.reg_setReg, hq, hq']; rfl
  case frame => exact loadFrame_of_fields rfl rfl rfl ⟨rfl, rfl, rfl, rfl⟩ rfl

theorem execPop_lr_next (h : memRead (s.reg .r7) s = .ok (v, { s with dev := d })) :
    ∃ t, exec (.pop .lr) s = .next t ∧ t.lr = v ∧ OnlyRegister .r7 (s.reg .r7 + 1#16) s t ∧ t.flags = s.flags ∧
      t.pc = s.pc + 1#16 ∧ LoadFrame d s t := by
  refine ⟨_, afterLoad_ok (popWord_ok h) fun w u => (u.setLr w).advance, rfl, onlyRegister_setReg rfl, rfl,
    nextAddress_eq s.pc, ?_⟩
  exact loadFrame_of_fields rfl rfl rfl ⟨rfl, rfl, rfl, rfl⟩ rfl

theorem execLdf_next (h : memRead (s.reg .r7) s = .ok (v, { s with dev := d })) :
    ∃ t, exec .ldf s = .next t ∧ t.flags = flagsOfWord v ∧ OnlyRegister .r7 (s.reg .r7 + 1#16) s t ∧ t.lr = s.lr ∧
      t.pc = s.pc + 1#16 ∧ LoadFrame d s t := by
  refine ⟨_, afterLoad_ok (popWord_ok h) fun w u => (u.setFlags (flagsOfWord w)).advance, rfl,
    onlyRegister_setReg rfl, rfl, nextAddress_eq s.pc, ?_⟩
  exact loadFrame_of_fields rfl rfl rfl ⟨rfl, rfl, rfl, rfl⟩ rfl

theorem execReti_next (h : memRead (s.reg .r7) s = .ok (v, { s with dev := d })) :
    ∃ t, exec .reti s = .next t ∧ t.pc = v ∧ OnlyRegister .r7 (s.reg .r7 + 1#16) s t ∧ t.flags = s.flags ∧
      t.lr = s.lr ∧ LoadFrame d s t := by
  refine ⟨_, afterLoad_ok (popWord_ok h) fun w u => u.setPc w, rfl, onlyRegister_setReg rfl, rfl, rfl, ?_⟩
  exact loadFrame_of_fields rfl rfl rfl ⟨rfl, rfl, rfl, rfl⟩ rfl

end

/-! ### What an instruction that stores does -/

/-- After a store by an instruction: memory and devices as the store left them, PC at the next address. -/
def StoreFrame (m : Memory) (d : Device) (s t : State) : Prop :=
  t.mem = m ∧ t.dev = d ∧ t.flags = s.flags ∧ t.lr = s.lr ∧ t.pc = s.pc + 1#16 ∧ AccessFrame s t

/-- What any store by an instruction leaves alone; the registers are those the store began with. -/
theorem afterStore_ok (a : Word) {s : State} {rs : Regs} {m : Memory} {d : Device} {r : Except Refusal State}
    (h : r = .ok { s with regs := rs, mem := m, dev := d }) :
    ∃ t, afterStore a r = .next t ∧ t.regs = rs ∧ StoreFrame m d s t :=
  ⟨_, congrArg (afterStore a) h, rfl, rfl, rfl, rfl, rfl, nextAddress_eq s.pc, rfl, ⟨rfl, rfl, rfl, rfl⟩, rfl⟩

section
variable {s : State} {v : Word} {m : Memory} {d : Device}

theorem execStw_next {rd ra : Reg} {imm : BitVec 5}
    (h : memWrite (effectiveAddress (s.reg ra) imm) (s.reg rd) s = .ok { s with mem := m, dev := d }) :
    ∃ t, exec (.stw rd ra imm) s = .next t ∧ SameRegisters s t ∧ StoreFrame m d s t := by
  obtain ⟨t, hnext, hregs, hframe⟩ := afterStore_ok (effectiveAddress (s.reg ra) imm) (rs := s.regs) h
  exact ⟨t, hnext, sameRegisters_of_regs hregs, hframe⟩

/-- PUSH of every source but R7, which is refused before it stores. -/
theorem execPush_next {src : StackReg} (hsrc : src ≠ .gpr .r7)
    (h : pushWord (s.stackReg src) s = .ok { s.setReg .r7 (s.reg .r7 - 1#16) with mem := m, dev := d }) :
    ∃ t, exec (.push src) s = .next t ∧ OnlyRegister .r7 (s.reg .r7 - 1#16) s t ∧ StoreFrame m d s t := by
  obtain ⟨t, hnext, hregs, hframe⟩ := afterStore_ok (previousAddress s.sp) (s := s) h
  exact ⟨t, (if_neg hsrc).trans hnext, onlyRegister_setReg hregs, hframe⟩

theorem execStf_next (h : pushWord (flagWord s.flags) s =
      .ok { s.setReg .r7 (s.reg .r7 - 1#16) with mem := m, dev := d }) :
    ∃ t, exec .stf s = .next t ∧ OnlyRegister .r7 (s.reg .r7 - 1#16) s t ∧ StoreFrame m d s t := by
  obtain ⟨t, hnext, hregs, hframe⟩ := afterStore_ok (previousAddress s.sp) (s := s) h
  exact ⟨t, hnext, onlyRegister_setReg hregs, hframe⟩

theorem enterInterrupt_ok {t : State} (h : pushWord s.pc s = .ok t) :
    enterInterrupt s = .next { t with ie := false, pc := s.isrVector } := by
  rw [enterInterrupt, h]; rfl

end

end Sys2Proof.Machine
end

section
/-! The statements on loads and stores: each is an instruction's lemma of the part before, at one part of the address map. -/

namespace Sys2Proof.Machine

open Sys2Proof

/-! ### LDW and STW (42_data_transfer.md R181, R182; 60_exceptions.md R262 to R265) -/

theorem LoadFrame.sameControl {s t : State} (h : LoadFrame s.dev s t) (hlr : t.lr = s.lr) : SameControl s t := by
  obtain ⟨hdev, -, hie, hconstants, -⟩ := h
  exact ⟨hlr, hie, hdev, hconstants⟩

theorem StoreFrame.sameControl {m : Memory} {s t : State} (h : StoreFrame m s.dev s t) : SameControl s t := by
  obtain ⟨-, hdev, -, hlr, -, hie, hconstants, -⟩ := h
  exact ⟨hlr, hie, hdev, hconstants⟩

/-- Settles O23. -/
theorem ldwLoadsFromMainMemory : Obligations.LdwLoadsFromMainMemory := by
  intro rd ra imm s haddress
  obtain ⟨t, hnext, hreg, hflags, hlr, hpc, hframe⟩ := execLdw_next rd (memRead_mainMemory haddress s)
  obtain ⟨-, hmem, -, -, hdraws⟩ := id hframe
  exact ⟨_, t, readsAs_mainWord s _, hnext, hreg, hflags, hmem, hframe.sameControl hlr, hpc, hdraws⟩

/-- Settles O24. -/
theorem ldwReadsDevices : Obligations.LdwReadsDevices := by
  intro rd ra imm s
  refine ⟨fun haddress => ?switches, fun haddress => ?serial⟩
  case switches =>
    obtain ⟨t, hnext, hreg, hflags, hlr, hpc, hdev, hmem, hie, hconstants, hdraws⟩ :=
      execLdw_next rd (haddress ▸ memRead_switches s)
    exact ⟨t, hnext, hreg, hdev, hflags, hmem, hlr, hie, hconstants, hpc, hdraws⟩
  case serial =>
    obtain ⟨t, hnext, hreg, hflags, hlr, hpc, hdev, hmem, hie, hconstants, hdraws⟩ :=
      execLdw_next rd (haddress ▸ memRead_serialData s)
    have hreleased : t.dev.irqPending = false := by rw [hdev]; exact Bool.and_false _
    exact ⟨t, hnext, hreg, hdev, hreleased, hflags, hmem, hlr, hie, hconstants, hpc, hdraws⟩

/-- Settles O25. -/
theorem stwStoresToMainMemory : Obligations.StwStoresToMainMemory := by
  intro rd ra imm s haddress
  obtain ⟨t, hnext, hregs, hframe⟩ := execStw_next (memWrite_mainMemory haddress (s.reg rd) s)
  obtain ⟨hmem, -, hflags, -, hpc, -, -, hdraws⟩ := id hframe
  exact ⟨t, hnext, word_of_write hmem, sameMemoryExcept_of_write hmem, hregs, hflags, hframe.sameControl, hpc, hdraws⟩

/-- Settles O26. -/
theorem stwWritesDevices : Obligations.StwWritesDevices := by
  intro rd ra imm s
  refine ⟨fun haddress => ?leds, fun haddress hvalue => ?serial⟩
  case leds =>
    obtain ⟨t, hnext, hregs, hmem, hdev, hflags, hlr, hpc, hie, hconstants, hdraws⟩ :=
      execStw_next (haddress ▸ memWrite_leds (s.reg rd) s)
    exact ⟨t, hnext, hdev, hregs, sameMemory_of_mem hmem, hflags, hlr, hie, hconstants, hpc, hdraws⟩
  case serial =>
    obtain ⟨t, hnext, hregs, hmem, hdev, hflags, hlr, hpc, hie, hconstants, hdraws⟩ :=
      execStw_next (haddress ▸ hvalue ▸ memWrite_serialControl s)
    exact ⟨t, hnext, hdev, hregs, sameMemory_of_mem hmem, hflags, hlr, hie, hconstants, hpc, hdraws⟩

/-! ### Undescribed accesses (20_memory.md R57) -/

/-- A step that takes the interrupt is the entry. -/
theorem step_of_enters {s : State} (h : s.Enters) : step s = enterInterrupt s.tick := if_pos h

theorem afterLoad_refused {a : Word} {why : Refusal} {r : Except Refusal (Word × State)} (h : r = .error why)
    (use : Word → State → State) : afterLoad a r use = .refused why := by
  rw [h]; rfl

theorem afterStore_refused {a : Word} {why : Refusal} {r : Except Refusal State} (h : r = .error why) :
    afterStore a r = .refused why := by
  rw [h]; rfl

/-- Settles O27: the access is refused before the instruction does anything with it. -/
theorem undescribedAccessesAreRefused : Obligations.UndescribedAccessesAreRefused := by
  intro s why
  refine ⟨fun rd ra imm h => ?ldw, fun h => ⟨?ldf, ?reti, fun dst hdst => ?pop⟩, fun rd ra imm h => ?stw,
    fun src hsrc h => ?push, fun h => ?stf, fun henters h => ?entry⟩
  case ldw => exact afterLoad_refused (memRead_undescribed h s) fun w u => (u.setReg rd w).advance
  case ldf => exact afterLoad_refused (popWord_undescribed h) fun w u => (u.setFlags (flagsOfWord w)).advance
  case reti => exact afterLoad_refused (popWord_undescribed h) fun w u => u.setPc w
  case pop => exact (if_neg hdst).trans (afterLoad_refused (popWord_undescribed h) _)
  case stw => exact afterStore_refused (memWrite_undescribed h s)
  case push => exact (if_neg hsrc).trans (afterStore_refused (pushWord_undescribed h))
  case stf => exact afterStore_refused (pushWord_undescribed h)
  case entry =>
    have hpush : pushWord s.tick.pc s.tick = .error why := pushWord_undescribed h
    rw [step_of_enters henters, enterInterrupt, hpush]

/-! ### PUSH and POP (44_stack.md R210 to R212) -/

/-- Settles O35. -/
theorem pushStoresBelowTheTop : Obligations.PushStoresBelowTheTop := by
  intro src s hsrc hslot
  have hbelow : previousAddress s.sp = s.reg .r7 - 1#16 := previousAddress_eq s.sp
  rw [hbelow] at hslot ⊢
  obtain ⟨t, hnext, hreg, hframe⟩ := execPush_next hsrc (pushWord_mainMemory hslot (s.stackReg src))
  obtain ⟨hmem, -, hflags, -, hpc, -, -, hdraws⟩ := id hframe
  refine ⟨t, hnext, rfl, hreg, ?word, sameMemoryExcept_of_write hmem, hflags, hframe.sameControl, hpc, hdraws⟩
  case word => cases src <;> exact word_of_write hmem

/-- Settles O36. -/
theorem popLoadsTheTop : Obligations.PopLoadsTheTop := by
  intro s htop
  have hread := memRead_mainMemory htop s
  refine ⟨_, readsAs_mainWord s _, fun r hr => ?gpr, ?lr⟩
  case gpr =>
    obtain ⟨t, hnext, hvalue, hpointer, hothers, hflags, hlr, hpc, hframe⟩ := execPop_gpr_next hread hr
    obtain ⟨-, hmem, -, -, hdraws⟩ := id hframe
    exact ⟨t, hnext, hvalue, hpointer, hothers, hmem, hflags, hframe.sameControl hlr, hpc, hdraws⟩
  case lr =>
    obtain ⟨t, hnext, hvalue, hreg, hflags, hpc, hdev, hmem, hie, hconstants, hdraws⟩ := execPop_lr_next hread
    exact ⟨t, hnext, hvalue, hreg, hmem, hflags, hie, hdev, hconstants, hpc, hdraws⟩

/-- Settles O38: the pop reads the slot that the push wrote. -/
theorem pushThenPopMovesTheValue : Obligations.PushThenPopMovesTheValue := by
  intro src dst s hsrc hdst hslot
  obtain ⟨t, hpush, ⟨hpointer, hothers⟩, hmem, -, hflags, hlr, hpc, -⟩ :=
    execPush_next hsrc (pushWord_mainMemory hslot (s.stackReg src))
  have hread : memRead (t.reg .r7) t = .ok (s.stackReg src, t) := by
    rw [hpointer, memRead_mainMemory hslot, mainWord_of_word (word_of_write hmem)]
  have htop : t.reg .r7 + 1#16 = s.reg .r7 := by rw [hpointer, BitVec.sub_add_cancel]
  have hpc' : t.pc + 1#16 = s.pc + 2#16 := by rw [hpc, BitVec.add_assoc]; rfl
  cases dst with
  | gpr r =>
    have hr : r ≠ .r7 := fun h => hdst (congrArg StackReg.gpr h)
    obtain ⟨u, hpop, hvalue, hback, hkept, hflagsPop, hlrPop, hpcPop, -⟩ := execPop_gpr_next hread hr
    refine ⟨t, u, hpush, hpop, hvalue, hback.trans htop, fun q hq => ?_, fun _ => hlrPop.trans hlr,
      hflagsPop.trans hflags, hpcPop.trans hpc'⟩
    by_cases hsp : q = .r7
    · exact hsp ▸ hback.trans htop
    · exact (hkept q (fun h => hq (congrArg StackReg.gpr h)) hsp).trans (hothers q hsp)
  | lr =>
    obtain ⟨u, hpop, hvalue, ⟨hback, hkept⟩, hflagsPop, hpcPop, -⟩ := execPop_lr_next hread
    refine ⟨t, u, hpush, hpop, hvalue, hback.trans htop, fun q _ => ?_, fun h => absurd rfl h,
      hflagsPop.trans hflags, hpcPop.trans hpc'⟩
    by_cases hsp : q = .r7
    · exact hsp ▸ hback.trans htop
    · exact (hkept q hsp).trans (hothers q hsp)

/-! ### RETI, STF and LDF (45_interrupt_instructions.md R221, R224, R225) -/

/-- Settles O40. -/
theorem retiPopsPc : Obligations.RetiPopsPc := by
  intro s htop
  obtain ⟨t, hnext, hpc, hreg, hflags, hlr, hframe⟩ := execReti_next (memRead_mainMemory htop s)
  obtain ⟨-, hmem, -, -, hdraws⟩ := id hframe
  exact ⟨_, t, readsAs_mainWord s _, hnext, hpc, hreg, hmem, hflags, hframe.sameControl hlr, hdraws⟩

theorem flagWord_eq (f : Flags) :
    flagWord f = BitVec.ofNat 16 (8 * f.z.toNat + 4 * f.c.toNat + 2 * f.v.toNat + f.n.toNat) := by
  obtain ⟨n, z, v, c⟩ := f
  revert n z v c
  decide

theorem flagsOfWord_flagWord (f : Flags) : flagsOfWord (flagWord f) = f := by
  obtain ⟨n, z, v, c⟩ := f
  revert n z v c
  decide

/-- Settles O42. -/
theorem stfPushesTheFlagWord : Obligations.StfPushesTheFlagWord := by
  intro s hslot
  have hbelow : previousAddress s.sp = s.reg .r7 - 1#16 := previousAddress_eq s.sp
  rw [hbelow] at hslot ⊢
  obtain ⟨t, hnext, hreg, hframe⟩ := execStf_next (pushWord_mainMemory hslot (flagWord s.flags))
  obtain ⟨hmem, -, hflags, -, hpc, -, -, hdraws⟩ := id hframe
  exact ⟨t, hnext, rfl, hreg, (word_of_write hmem).trans (congrArg some (flagWord_eq s.flags)),
    sameMemoryExcept_of_write hmem, hflags, hframe.sameControl, hpc, hdraws⟩

/-- Settles O43. -/
theorem ldfPopsTheFlags : Obligations.LdfPopsTheFlags := by
  intro s htop
  obtain ⟨t, hnext, hflags, hreg, hlr, hpc, hframe⟩ := execLdf_next (memRead_mainMemory htop s)
  obtain ⟨-, hmem, -, -, hdraws⟩ := id hframe
  exact ⟨_, t, readsAs_mainWord s _, hnext, hflags, hreg, hmem, hframe.sameControl hlr, hpc, hdraws⟩

/-! ### Stack accesses to devices (60_exceptions.md R262 to R267) -/

/-- Settles O39. -/
theorem stackAccessesReachDevices : Obligations.StackAccessesReachDevices := by
  intro s v d
  refine ⟨fun hload => ?loads, fun hstore => ?stores, fun henters => step_of_enters henters⟩
  case loads =>
    have hread : memRead (s.reg .r7) s = .ok (v, { s with dev := d }) := by
      obtain ⟨hsp, rfl, rfl⟩ | ⟨hsp, rfl, rfl⟩ := hload
      · rw [hsp, memRead_switches]
      · rw [hsp, memRead_serialData]
    refine ⟨fun r hr => ?gpr, ?lr, ?ldf, ?reti⟩
    case gpr =>
      obtain ⟨t, hnext, hvalue, hpointer, hothers, hflags, hlr, hpc, hdev, hmem, -⟩ := execPop_gpr_next hread hr
      exact ⟨t, hnext, hvalue, hpointer, hothers, hdev, hmem, hflags, hlr, hpc⟩
    case lr =>
      obtain ⟨t, hnext, hvalue, hreg, hflags, hpc, hdev, hmem, -⟩ := execPop_lr_next hread
      exact ⟨t, hnext, hvalue, hdev, hreg, hmem, hflags, hpc⟩
    case ldf =>
      obtain ⟨t, hnext, hflags, hreg, hlr, hpc, hdev, hmem, -⟩ := execLdf_next hread
      exact ⟨t, hnext, hflags, hdev, hreg, hmem, hlr, hpc⟩
    case reti =>
      obtain ⟨t, hnext, hpc, hreg, hflags, hlr, hdev, hmem, -⟩ := execReti_next hread
      exact ⟨t, hnext, hpc, hdev, hreg, hmem, hflags, hlr⟩
  case stores =>
    have hpush := pushWord_device hstore
    refine ⟨fun src hsrc hvalue => ?push, fun hvalue => ?stf, fun hvalue => ?entry⟩
    case push =>
      subst hvalue
      obtain ⟨t, hnext, hreg, hmem, hdev, hflags, hlr, hpc, -⟩ := execPush_next hsrc hpush
      exact ⟨t, hnext, hdev, hreg, sameMemory_of_mem hmem, hflags, hlr, hpc⟩
    case stf =>
      subst hvalue
      obtain ⟨t, hnext, hreg, hmem, hdev, hflags, hlr, hpc, -⟩ := execStf_next hpush
      exact ⟨t, hnext, hdev, hreg, sameMemory_of_mem hmem, hflags, hlr, hpc⟩
    case entry =>
      subst hvalue
      exact enterInterrupt_ok hpush

/-! ### An ISR's return (60_exceptions.md R249; 45_interrupt_instructions.md R226) -/

theorem sub_one_sub_one (a : Word) : a - 1#16 - 1#16 = a - 2#16 := by bv_omega

/-- Entry and STF leave the return address and below it the flag word on the stack. -/
theorem entry_stf_stack {s a b : State} (hslot : (s.reg .r7 - 1#16).toNat < 0x0800)
    (hslot' : (s.reg .r7 - 2#16).toNat < 0x0800) (henter : enterInterrupt s = .next a) (hstf : exec .stf a = .next b) :
    b.reg .r7 = s.reg .r7 - 2#16 ∧ b.word (s.reg .r7 - 1#16) = some s.pc ∧
      b.word (s.reg .r7 - 2#16) = some (flagWord s.flags) := by
  rw [enterInterrupt_ok (pushWord_mainMemory hslot s.pc)] at henter
  have ha := Host.Outcome.next.inj henter
  have hpointer : a.reg .r7 - 1#16 = s.reg .r7 - 2#16 := by rw [← ha]; exact sub_one_sub_one _
  have hmem : a.mem = s.mem.write (s.reg .r7 - 1#16) s.pc := by rw [← ha]
  have hflags : a.flags = s.flags := by rw [← ha]; rfl
  obtain ⟨t, hnext, ⟨hreg, -⟩, hwritten, -⟩ :=
    execStf_next (pushWord_mainMemory (s := a) (by rwa [hpointer]) (flagWord a.flags))
  obtain rfl := Host.Outcome.next.inj (hstf.symm.trans hnext)
  rw [hpointer] at hreg hwritten
  refine ⟨hreg, ?pc, (word_of_write hwritten).trans (by rw [hflags])⟩
  have hne : s.reg .r7 - 1#16 ≠ s.reg .r7 - 2#16 := by bv_omega
  exact (sameMemoryExcept_of_write hwritten _ hne).trans (word_of_write hmem)

/-- Settles O44. -/
theorem isrReturnsToTheInterruptedProgram : Obligations.IsrReturnsToTheInterruptedProgram := by
  intro s a b w hslot hslot' henter hstf hpointer hreturn hflagsWord
  obtain ⟨hsp, hpc, hflags⟩ := entry_stf_stack hslot hslot' henter hstf
  rw [hsp] at hpointer
  rw [hpc] at hreturn
  rw [hflags] at hflagsWord
  have hread : memRead (w.reg .r7) w = .ok (flagWord s.flags, w) := by
    rw [hpointer, memRead_mainMemory hslot', mainWord_of_word hflagsWord]
  obtain ⟨c, hldf, hflagsC, ⟨hpointerC, hothersC⟩, hlrC, -, -, hmemC, hieC, -⟩ := execLdf_next hread
  have hpointerC' : c.reg .r7 = s.reg .r7 - 1#16 := by rw [hpointerC, hpointer]; bv_omega
  have hreadC : memRead (c.reg .r7) c = .ok (s.pc, c) := by
    rw [hpointerC', memRead_mainMemory hslot, mainWord_of_word ((hmemC _).trans hreturn)]
  obtain ⟨d, hreti, hpcD, ⟨hpointerD, hothersD⟩, hflagsD, hlrD, -, -, hieD, -⟩ := execReti_next hreadC
  refine ⟨c, d, hldf, hreti, hpcD, ?flags, ?pointer, hieD.trans hieC, hlrD.trans hlrC, fun r hr => ?others⟩
  case flags => rw [hflagsD, hflagsC, flagsOfWord_flagWord]
  case pointer => rw [hpointerD, hpointerC', BitVec.sub_add_cancel]
  case others => rw [hothersD r hr, hothersC r hr]

end Sys2Proof.Machine
end

section
/-! One step (60_exceptions.md R244 to R246, R264 to R267): the boundary's arrivals, the entry, the fetch and its refusals, and
what a store to the next fetch's word does. -/

namespace Sys2Proof.Machine

open Sys2Proof

/-! ### Fetch and decode (20_memory.md R61) -/

theorem step_of_not_taken {s : State} (h : s.tick.takesInterrupt = false) : step s = runInstruction s.tick := by
  rw [step, h, if_neg Bool.false_ne_true]

theorem fetch_word {s : State} {w : Word} (hpc : s.pc.toNat < 0x0800) (hword : s.mem.read s.pc = some w) :
    fetch s = .ok (w, { s with ir := w }) := by
  rw [fetch, region_mainMemory.mpr hpc, hword]

/-- A step that takes no interrupt and finds a defined word runs it. -/
theorem step_of_word {s : State} {w : Word} {i : Instr} (htakes : s.tick.takesInterrupt = false)
    (hpc : s.pc.toNat < 0x0800) (hword : s.mem.read s.pc = some w) (hdecode : decode w = .ok i) :
    step s = exec i (s.executing w) := by
  rw [step_of_not_taken htakes, runInstruction, fetch_word (s := s.tick) hpc hword]
  simp only [hdecode]
  rfl

/-- Settles O6. -/
theorem stepRunsTheDecodedInstruction : Obligations.StepRunsTheDecodedInstruction :=
  fun _ _ _ htakes hpc hword hdecode => step_of_word htakes hpc hword hdecode

theorem runInstruction_refused {s : State} {e : Refusal} (h : fetch s = .error e) : runInstruction s = .refused e := by
  rw [runInstruction, h]

/-- Settles O7: one case per part of the address map. -/
theorem stepRefusesWhatIsNoInstruction : Obligations.StepRefusesWhatIsNoInstruction := by
  intro s htakes
  rw [step_of_not_taken htakes]
  refine ⟨fun w why hpc hword hdecode => ?undefined, fun hpc hword => ?unwritten, fun hpc => ?device, fun hpc => ?unmapped⟩
  case undefined =>
    rw [runInstruction, fetch_word (s := s.tick) hpc hword]
    simp only [hdecode]
  case unwritten =>
    apply runInstruction_refused
    rw [fetch, State.tick_pc, region_mainMemory.mpr hpc, State.tick_mem, hword]
  case device =>
    apply runInstruction_refused
    rw [fetch, State.tick_pc]
    obtain h | h | h | h := hpc <;> rw [h] <;> rfl
  case unmapped =>
    apply runInstruction_refused
    rw [fetch, State.tick_pc, region_unpopulated hpc]

/-! ### Interrupt entry (60_exceptions.md R246) -/

/-- Settles O8: the push goes to main memory, so entry completes. -/
theorem interruptEntryPushesPcAndDisables : Obligations.InterruptEntryPushesPcAndDisables := by
  intro s hie henable hunread hslot
  have henters : s.Enters := by
    rw [State.Enters, State.takesInterrupt, State.tick_ie, State.tick_dev, Device.irqPending, hie, henable, hunread]
    rfl
  have hstep := (step_of_enters henters).trans (enterInterrupt_ok (pushWord_mainMemory (s := s.tick) hslot s.pc))
  exact ⟨_, hstep, onlyRegister_setReg rfl, word_of_write rfl, sameMemoryExcept_of_write rfl,
    rfl, rfl, rfl, rfl, rfl, rfl, rfl, rfl, rfl, rfl, rfl⟩

/-! ### Serial arrivals (60_exceptions.md R264 to R267) -/

/-- Of several received values the last is held. -/
theorem receive_fold_last {l : List Arrival} {x : Arrival} (h : l.getLast? = some x) (d : Device) :
    (l.foldl (fun e x => e.receive x.datum) d).serialData = x.datum ∧
      (l.foldl (fun e x => e.receive x.datum) d).serialUnread = true := by
  obtain ⟨earlier, rfl⟩ := List.getLast?_eq_some_iff.mp h
  rw [List.foldl_append]
  exact ⟨rfl, rfl⟩

/-- An unread value stays unread at a boundary, or another takes its place. -/
theorem tick_serialUnread {d : Device} (h : d.serialUnread = true) (b : Nat) : (d.tick b).serialUnread = true := by
  cases hlast : (d.arrivals.filter (Arrival.due b)).getLast? with
  | some x => exact (receive_fold_last hlast d).2
  | none =>
    have hnone : d.arrivals.filter (Arrival.due b) = [] := List.getLast?_eq_none_iff.mp hlast
    rw [Device.tick, hnone]
    exact h

theorem tick_arrivals (d : Device) (b : Nat) :
    (d.tick b).arrivals = d.arrivals.filter (fun x => decide (b < x.boundary)) :=
  List.filter_congr fun x _ => by simp [Arrival.due, ← decide_not]

/-- Settles O9. -/
theorem arrivalsAreReceivedAtTheirBoundary : Obligations.ArrivalsAreReceivedAtTheirBoundary := by
  intro s
  refine ⟨fun hnone => ?none, fun x hlast => ?last, tick_arrivals _ _, Device.tick_switches _ _, Device.tick_leds _ _,
    Device.tick_serialIntEnable _ _, fun hdisabled => ?disabled, fun rd ra imm haddress hvalue hunread => ?enabled⟩
  case none =>
    have hdue : s.dev.arrivals.filter (Arrival.due s.boundary) = [] := hnone
    rw [State.tick_dev, Device.tick, hdue]
    exact ⟨rfl, rfl⟩
  case last =>
    obtain ⟨hdata, hunread⟩ := receive_fold_last (l := s.dev.arrivals.filter (Arrival.due s.boundary)) hlast s.dev
    refine ⟨hdata, hunread, fun hie henable hslot => ?_⟩
    have henable' := (Device.tick_serialIntEnable s.boundary s.dev).trans henable
    obtain ⟨t, hstep, -, hword, -, hie', hpc, -, -, -, -, hdev, -⟩ :=
      interruptEntryPushesPcAndDisables s hie henable' hunread hslot
    exact ⟨t, hstep, hpc, hie', hword, hdev ▸ hdata, hdev ▸ hunread⟩
  case disabled => simp [Device.irqPending, hdisabled]
  case enabled =>
    obtain ⟨t, hnext, -, -, hdev, -⟩ := execStw_next (haddress ▸ hvalue ▸ memWrite_serialControl s)
    exact ⟨t, hnext, by simp [Device.irqPending, hdev, hunread]⟩

/-- Settles O45: the request outlives the boundary, so the step after the ENAI is the entry. -/
theorem enaiActsAtTheNextBoundary : Obligations.EnaiActsAtTheNextBoundary := by
  intro s t hnext henable hunread hslot
  obtain rfl := Host.Outcome.next.inj ((enaiAndDisiWriteIe s).1.symm.trans hnext)
  obtain ⟨u, hstep, -, hword, -, hie, hpc, -⟩ := interruptEntryPushesPcAndDisables
    { s with ie := true, pc := s.pc + 1#16 } rfl
    ((Device.tick_serialIntEnable s.boundary s.dev).trans henable) (tick_serialUnread hunread s.boundary) hslot
  exact ⟨u, hstep, hpc, hie, hword⟩

/-! ### Stores and fetches (20_memory.md R65; 70_reset_and_hazards.md R289) -/

/-- Settles O46. -/
theorem storedWordIsFetchedNext : Obligations.StoredWordIsFetchedNext := by
  refine ⟨fun rd ra imm s t i hnext haddress hnextPc hdecode htakes => ?next, fun s w htakes hpc hword =>
    ⟨fun rd ra imm hdecode haddress => ?stw, fun src hsrc hdecode hslot => ?push, fun hdecode hslot => ?stf⟩⟩
  case next =>
    obtain ⟨t', hnext', -, hmem, -, -, -, hpc, -⟩ :=
      execStw_next (memWrite_mainMemory (haddress.symm ▸ hnextPc) (s.reg rd) s)
    obtain rfl := Host.Outcome.next.inj (hnext.symm.trans hnext')
    rw [haddress] at hmem
    exact step_of_word htakes (hpc.symm ▸ hnextPc) (hpc.symm ▸ word_of_write hmem) hdecode
  case stw =>
    obtain ⟨t, hnext, hregs, hmem, -, -, -, hpc', -, ⟨hir, -⟩, -⟩ :=
      execStw_next (s := s.executing w) (rd := rd) (ra := ra) (imm := imm) (memWrite_mainMemory (haddress.symm ▸ hpc) _ _)
    have hmem' : t.mem = s.mem.write s.pc (s.reg rd) := haddress ▸ hmem
    exact ⟨t, (step_of_word htakes hpc hword hdecode).trans hnext, word_of_write hmem', sameMemoryExcept_of_write hmem',
      hregs, hir, hpc'⟩
  case push =>
    have hslot' : ((s.executing w).reg .r7 - 1#16).toNat < 0x0800 := hslot.symm ▸ hpc
    obtain ⟨t, hnext, hreg, hmem, -, -, -, hpc', -, ⟨hir, -⟩, -⟩ :=
      execPush_next hsrc (pushWord_mainMemory hslot' ((s.executing w).stackReg src))
    have hmem' : t.mem = s.mem.write s.pc (s.stackReg src) := by rw [← hslot, hmem]; cases src <;> rfl
    exact ⟨t, (step_of_word htakes hpc hword hdecode).trans hnext, word_of_write hmem', sameMemoryExcept_of_write hmem',
      hslot ▸ hreg, hir, hpc'⟩
  case stf =>
    have hslot' : ((s.executing w).reg .r7 - 1#16).toNat < 0x0800 := hslot.symm ▸ hpc
    obtain ⟨t, hnext, hreg, hmem, -, -, -, hpc', -, ⟨hir, -⟩, -⟩ :=
      execStf_next (pushWord_mainMemory hslot' (flagWord (s.executing w).flags))
    have hmem' : t.mem = s.mem.write s.pc (flagWord s.flags) := by rw [← hslot]; exact hmem
    exact ⟨t, (step_of_word htakes hpc hword hdecode).trans hnext, word_of_write hmem', sameMemoryExcept_of_write hmem',
      hslot ▸ hreg, hir, hpc'⟩

end Sys2Proof.Machine
end

section
/-! What an instruction and what a step can change (10_state.md R38; 20_memory.md R55; 60_exceptions.md R242, R263). Two facts
carry the section: `Access`, everything a load or a store can do to memory and the devices, and `RowFrame`, what an
instruction's row leaves alone in the processor. -/

namespace Sys2Proof.Machine

open Sys2Proof

/-! ### Memory and devices -/

/-- Everything that can happen to memory and the devices when the given addresses are loaded from and stored to. -/
inductive Access (load store : Option Word) (s t : State) : Prop where
  | silent (hmem : t.mem = s.mem) (hdev : t.dev = s.dev)
  | release (hload : load = some 0xA000#16) (hmem : t.mem = s.mem)
      (hdev : t.dev = { s.dev with serialUnread := false })
  | write (a v : Word) (hstore : store = some a) (hregion : region a = .mainMemory) (hmem : t.mem = s.mem.write a v)
      (hdev : t.dev = s.dev)
  | leds (v : Word) (hstore : store = some 0x0801#16) (hmem : t.mem = s.mem) (hdev : t.dev = { s.dev with leds := v })
  | enable (hstore : store = some 0xA001#16) (hmem : t.mem = s.mem)
      (hdev : t.dev = { s.dev with serialIntEnable := true })

theorem Access.congr {load store : Option Word} {s t s' t' : State} (h : Access load store s t)
    (hmem : s'.mem = s.mem) (hdev : s'.dev = s.dev) (hmem' : t'.mem = t.mem) (hdev' : t'.dev = t.dev) :
    Access load store s' t' := by
  cases h with
  | silent hm hd => exact .silent (by rw [hmem', hm, hmem]) (by rw [hdev', hd, hdev])
  | release hload hm hd => exact .release hload (by rw [hmem', hm, hmem]) (by rw [hdev', hd, hdev])
  | write a v hstore hregion hm hd =>
    exact .write a v hstore hregion (by rw [hmem', hm, hmem]) (by rw [hdev', hd, hdev])
  | leds v hstore hm hd => exact .leds v hstore (by rw [hmem', hm, hmem]) (by rw [hdev', hd, hdev])
  | enable hstore hm hd => exact .enable hstore (by rw [hmem', hm, hmem]) (by rw [hdev', hd, hdev])

section
variable {load store : Option Word} {s t : State}

theorem Access.word (h : Access load store s t) {a : Word} (ha : store ≠ some a) : t.word a = s.word a := by
  cases h with
  | write b v hstore _ hmem _ =>
    exact sameMemoryExcept_of_write hmem a fun hab => ha (hab ▸ hstore)
  | silent hmem _ | release _ hmem _ | leds _ _ hmem _ | enable _ hmem _ => exact sameMemory_of_mem hmem a

theorem Access.sameLeds (h : Access load store s t) (hstore : store ≠ some 0x0801#16) : t.dev.leds = s.dev.leds := by
  cases h with
  | leds _ hleds _ _ => exact absurd hleds hstore
  | silent _ hdev | release _ _ hdev | write _ _ _ _ _ hdev | enable _ _ hdev => rw [hdev]

theorem Access.sameEnable (h : Access load store s t) (hstore : store ≠ some 0xA001#16) :
    t.dev.serialIntEnable = s.dev.serialIntEnable := by
  cases h with
  | enable henable _ _ => exact absurd henable hstore
  | silent _ hdev | release _ _ hdev | write _ _ _ _ _ hdev | leds _ _ _ hdev => rw [hdev]

/-- Nothing turns the device's interrupt off. -/
theorem Access.enable_stays (h : Access load store s t) (henable : s.dev.serialIntEnable = true) :
    t.dev.serialIntEnable = true := by
  cases h with
  | enable _ _ hdev => rw [hdev]
  | silent _ hdev | release _ _ hdev | write _ _ _ _ _ hdev | leds _ _ _ hdev => rw [hdev]; exact henable

theorem Access.sameUnread (h : Access load store s t) (hload : load ≠ some 0xA000#16) :
    t.dev.serialUnread = s.dev.serialUnread := by
  cases h with
  | release hrelease _ _ => exact absurd hrelease hload
  | silent _ hdev | write _ _ _ _ _ hdev | leds _ _ _ hdev | enable _ _ hdev => rw [hdev]

/-- No access changes the switches, the serial value or the script of arrivals. -/
theorem Access.constants (h : Access load store s t) : t.dev.switches = s.dev.switches ∧
    t.dev.serialData = s.dev.serialData ∧ t.dev.arrivals = s.dev.arrivals := by
  cases h with
  | silent _ hdev | release _ _ hdev | write _ _ _ _ _ hdev | leds _ _ _ hdev | enable _ _ hdev =>
    rw [hdev]
    exact ⟨rfl, rfl, rfl⟩

theorem Access.keeps_wf (h : Access load store s t) (hwf : s.mem.wf = true) : t.mem.wf = true := by
  cases h with
  | write a v _ hregion hmem _ => exact hmem ▸ Memory.wf_write _ _ _ hwf (region_mainMemory.mp hregion)
  | silent hmem _ | release _ hmem _ | leds _ _ hmem _ | enable _ hmem _ => exact hmem ▸ hwf

end

theorem region_device {a : Word} : (region a = .leds → a = 0x0801#16) ∧ (region a = .serialData → a = 0xA000#16) ∧
    (region a = .serialControl → a = 0xA001#16) := by
  unfold region
  grind [ledsAddress, serialDataAddress, serialControlAddress]

theorem memRead_access {a v : Word} {s t : State} (h : memRead a s = .ok (v, t)) (store : Option Word) :
    Access (some a) store s t := by
  obtain ⟨-, hserialData, -⟩ := @region_device a
  obtain ⟨-, -, rfl⟩ | ⟨-, -, rfl⟩ | ⟨hregion, -, rfl⟩ := memRead_cases h
  · exact .silent rfl rfl
  · exact .silent rfl rfl
  · exact .release (congrArg some (hserialData hregion)) rfl rfl

theorem memWrite_access {a v : Word} {s t : State} (h : memWrite a v s = .ok t) (load : Option Word) :
    Access load (some a) s t := by
  obtain ⟨hleds, -, hserialControl⟩ := @region_device a
  obtain ⟨hregion, rfl⟩ | ⟨hregion, rfl⟩ | ⟨hregion, -, rfl⟩ := memWrite_cases h
  · exact .write a v rfl hregion rfl rfl
  · exact .leds v (congrArg some (hleds hregion)) rfl rfl
  · exact .enable (congrArg some (hserialControl hregion)) rfl rfl

/-! ### What an access leaves of the processor -/

theorem memRead_eq {a v : Word} {s t : State} (h : memRead a s = .ok (v, t)) : ∃ d, t = { s with dev := d } := by
  obtain ⟨-, -, rfl⟩ | ⟨-, -, rfl⟩ | ⟨-, -, rfl⟩ := memRead_cases h
  exacts [⟨_, rfl⟩, ⟨_, rfl⟩, ⟨_, rfl⟩]

theorem memWrite_eq {a v : Word} {s t : State} (h : memWrite a v s = .ok t) :
    ∃ m d, t = { s with mem := m, dev := d } := by
  obtain ⟨-, rfl⟩ | ⟨-, rfl⟩ | ⟨-, -, rfl⟩ := memWrite_cases h
  exacts [⟨_, _, rfl⟩, ⟨_, _, rfl⟩, ⟨_, _, rfl⟩]

theorem pushWord_inv {v : Word} {s t : State} (h : pushWord v s = .ok t) (load : Option Word) :
    Access load (some (s.reg .r7 - 1#16)) s t ∧
      ∃ m d, t = { s.setReg .r7 (s.reg .r7 - 1#16) with mem := m, dev := d } := by
  rw [pushWord_eq] at h
  exact ⟨(memWrite_access h load).congr rfl rfl rfl rfl, memWrite_eq h⟩

theorem popWord_inv {v : Word} {s t : State} (h : popWord s = .ok (v, t)) (store : Option Word) :
    Access (some s.sp) store s t ∧ ∃ d, t = { s.setReg .r7 (s.reg .r7 + 1#16) with dev := d } := by
  obtain ⟨t₀, hread, rfl⟩ := popWord_cases h
  refine ⟨(memRead_access hread store).congr rfl rfl rfl rfl, ?_⟩
  obtain ⟨d, rfl⟩ := memRead_eq hread
  rw [nextAddress_eq]
  exact ⟨d, rfl⟩

/-- Everything interrupt entry does (60_exceptions.md R246). -/
theorem enterInterrupt_inv {s t : State} (h : enterInterrupt s = .next t) :
    Access none (some (s.reg .r7 - 1#16)) s t ∧ ∃ m d, t =
      { s.setReg .r7 (s.reg .r7 - 1#16) with mem := m, dev := d, ie := false, pc := s.isrVector } := by
  obtain ⟨t₀, hpush, rfl⟩ := enterInterrupt_next h
  obtain ⟨haccess, m, d, rfl⟩ := pushWord_inv hpush none
  exact ⟨haccess.congr rfl rfl rfl rfl, m, d, rfl⟩

end Sys2Proof.Machine
end

section
/-! The rows of the table of who writes what (10_state.md R38), instruction by instruction, and the statements on a step that
follow from them. -/

namespace Sys2Proof.Machine

open Sys2Proof

/-! ### The processor's part of a row -/

/-- What an instruction's row leaves alone in the processor. -/
def RowFrame (i : Instr) (s t : State) : Prop :=
  (∀ r : Reg, r ∉ i.destinations → t.reg r = s.reg r) ∧ (i.writesFlags = false → t.flags = s.flags) ∧
    (i.writesLr = false → t.lr = s.lr) ∧ (i.transfersControl = false → t.pc = s.pc + 1#16) ∧ SameConstants s t

/-- The row of an instruction that writes one general register. -/
theorem rowFrame_oneRegister {i : Instr} {s t : State} {rd : Reg} {v : Word} (hdest : i.destinations = [rd])
    (hregs : t.regs = s.regs.set rd v) (hflags : i.writesFlags = false → t.flags = s.flags)
    (hlr : i.writesLr = false → t.lr = s.lr) (hpc : i.transfersControl = false → t.pc = s.pc + 1#16)
    (hconstants : SameConstants s t) : RowFrame i s t :=
  ⟨fun r hr => otherRegisters_setReg hregs r (by simpa [hdest] using hr), hflags, hlr, hpc, hconstants⟩

/-- The row of an instruction that writes no general register. -/
theorem rowFrame_noRegister {i : Instr} {s t : State} (hregs : t.regs = s.regs)
    (hflags : i.writesFlags = false → t.flags = s.flags) (hlr : i.writesLr = false → t.lr = s.lr)
    (hpc : i.transfersControl = false → t.pc = s.pc + 1#16) (hconstants : SameConstants s t) : RowFrame i s t :=
  ⟨fun r _ => sameRegisters_of_regs hregs r, hflags, hlr, hpc, hconstants⟩

/-- Everything a completed instruction does to memory, the devices and the registers of its row. -/
def ExecEffect (i : Instr) (s t : State) : Prop := RowFrame i s t ∧ Access (i.loadAddress s) (i.storeAddress s) s t

/-- A completed POP of a register writes it after R7, which it cannot be; a POP of LR writes R7 and LR. -/
theorem execPop_effect {dst : StackReg} {s t : State} (h : exec (.pop dst) s = .next t) : ExecEffect (.pop dst) s t := by
  have hload : dst ≠ .gpr .r7 := by rintro rfl; cases h
  obtain ⟨v, t₀, hpop, rfl⟩ := afterLoad_next ((if_neg hload).symm.trans h)
  obtain ⟨haccess, d, rfl⟩ := popWord_inv hpop none
  cases dst with
  | gpr r =>
    refine ⟨⟨fun q hq => ?_, fun _ => rfl, fun _ => rfl, fun _ => nextAddress_eq _, ⟨rfl, rfl, rfl, rfl⟩⟩,
      haccess.congr rfl rfl rfl rfl⟩
    obtain ⟨hsp, hr⟩ : q ≠ .r7 ∧ q ≠ r := by simpa [Instr.destinations] using hq
    exact (otherRegisters_setReg (rd := r) rfl q hr).trans (otherRegisters_setReg (s := s) rfl q hsp)
  | lr =>
    exact ⟨rowFrame_oneRegister rfl rfl (fun _ => rfl) nofun (fun _ => nextAddress_eq _) ⟨rfl, rfl, rfl, rfl⟩,
      haccess.congr rfl rfl rfl rfl⟩

theorem execPush_effect {src : StackReg} {s t : State} (h : exec (.push src) s = .next t) :
    ExecEffect (.push src) s t := by
  have hstore : src ≠ .gpr .r7 := by rintro rfl; cases h
  obtain ⟨t₀, hpush, rfl⟩ := afterStore_next ((if_neg hstore).symm.trans h)
  obtain ⟨haccess, m, d, rfl⟩ := pushWord_inv hpush none
  rw [ExecEffect, Instr.storeAddress, previousAddress_eq]
  exact ⟨rowFrame_oneRegister rfl rfl (fun _ => rfl) (fun _ => rfl) (fun _ => nextAddress_eq _) ⟨rfl, rfl, rfl, rfl⟩,
    haccess.congr rfl rfl rfl rfl⟩

theorem exec_effect {i : Instr} {s t : State} (h : exec i s = .next t) : ExecEffect i s t := by
  cases i with
  | add | addi | addib | adc | adci | neg | sub | subi | subib | suc | suci | and | or | xor | not | nand | nor | lsl | lsr
    | asr =>
    cases h
    exact ⟨rowFrame_oneRegister rfl rfl nofun (fun _ => rfl) (fun _ => nextAddress_eq _) ⟨rfl, rfl, rfl, rfl⟩,
      .silent rfl rfl⟩
  | cmp | cmpi =>
    cases h
    exact ⟨rowFrame_noRegister rfl nofun (fun _ => rfl) (fun _ => nextAddress_eq _) ⟨rfl, rfl, rfl, rfl⟩, .silent rfl rfl⟩
  | lui | lli =>
    cases h
    exact ⟨rowFrame_oneRegister rfl rfl (fun _ => rfl) (fun _ => rfl) (fun _ => nextAddress_eq _) ⟨rfl, rfl, rfl, rfl⟩,
      .silent rfl rfl⟩
  | br imm | bne imm | be imm | blt imm | bge imm =>
    cases (branchIf_eq _ imm s).symm.trans h
    exact ⟨rowFrame_noRegister rfl (fun _ => rfl) (fun _ => rfl) nofun ⟨rfl, rfl, rfl, rfl⟩, .silent rfl rfl⟩
  | bwl =>
    cases h
    exact ⟨rowFrame_noRegister rfl (fun _ => rfl) nofun nofun ⟨rfl, rfl, rfl, rfl⟩, .silent rfl rfl⟩
  | ret | jmp =>
    cases h
    exact ⟨rowFrame_noRegister rfl (fun _ => rfl) (fun _ => rfl) nofun ⟨rfl, rfl, rfl, rfl⟩, .silent rfl rfl⟩
  | enai | disi =>
    cases h
    exact ⟨rowFrame_noRegister rfl (fun _ => rfl) (fun _ => rfl) (fun _ => nextAddress_eq _) ⟨rfl, rfl, rfl, rfl⟩,
      .silent rfl rfl⟩
  | ldw rd ra imm =>
    rw [exec, execLdw] at h
    obtain ⟨v, t₀, hread, rfl⟩ := afterLoad_next h
    have haccess := memRead_access hread none
    obtain ⟨d, rfl⟩ := memRead_eq hread
    exact ⟨rowFrame_oneRegister rfl rfl (fun _ => rfl) (fun _ => rfl) (fun _ => nextAddress_eq _) ⟨rfl, rfl, rfl, rfl⟩,
      haccess.congr rfl rfl rfl rfl⟩
  | stw rd ra imm =>
    obtain ⟨t₀, hwrite, rfl⟩ := afterStore_next h
    have haccess := memWrite_access hwrite none
    obtain ⟨m, d, rfl⟩ := memWrite_eq hwrite
    exact ⟨rowFrame_noRegister rfl (fun _ => rfl) (fun _ => rfl) (fun _ => nextAddress_eq _) ⟨rfl, rfl, rfl, rfl⟩,
      haccess.congr rfl rfl rfl rfl⟩
  | push src => exact execPush_effect h
  | pop dst => exact execPop_effect h
  | reti =>
    obtain ⟨v, t₀, hpop, rfl⟩ := returnFromInterrupt_next h
    obtain ⟨haccess, d, rfl⟩ := popWord_inv hpop none
    exact ⟨rowFrame_oneRegister rfl rfl (fun _ => rfl) (fun _ => rfl) nofun ⟨rfl, rfl, rfl, rfl⟩,
      haccess.congr rfl rfl rfl rfl⟩
  | stf =>
    obtain ⟨t₀, hpush, rfl⟩ := afterStore_next h
    obtain ⟨haccess, m, d, rfl⟩ := pushWord_inv hpush none
    rw [ExecEffect, Instr.storeAddress, previousAddress_eq]
    exact ⟨rowFrame_oneRegister rfl rfl (fun _ => rfl) (fun _ => rfl) (fun _ => nextAddress_eq _) ⟨rfl, rfl, rfl, rfl⟩,
      haccess.congr rfl rfl rfl rfl⟩
  | ldf =>
    rw [exec, execLdf] at h
    obtain ⟨v, t₀, hpop, rfl⟩ := afterLoad_next h
    obtain ⟨haccess, d, rfl⟩ := popWord_inv hpop none
    exact ⟨rowFrame_oneRegister rfl rfl nofun (fun _ => rfl) (fun _ => nextAddress_eq _) ⟨rfl, rfl, rfl, rfl⟩,
      haccess.congr rfl rfl rfl rfl⟩

/-- Settles O47: the row from `RowFrame`, memory and the devices from `Access`, IE from `exec_ie`. -/
theorem instructionsWriteOnlyTheirRow : Obligations.InstructionsWriteOnlyTheirRow := by
  intro i s t h
  obtain ⟨⟨hregs, hflags, hlr, hpc, hconstants⟩, haccess⟩ := exec_effect h
  obtain ⟨hswitches, hdata, harrivals⟩ := haccess.constants
  refine ⟨hregs, hflags, hlr, fun henai hdisi => exec_ie henai hdisi h, fun a ha => haccess.word ha, fun hstore => ?_,
    haccess.sameUnread, hpc, hswitches, hdata, harrivals, hconstants⟩
  exact ⟨haccess.sameLeds (by simp [hstore]), haccess.sameEnable (by simp [hstore])⟩

/-! ### A step -/

/-- The addresses of an instruction depend on the registers alone. -/
theorem addresses_executing (i : Instr) (s : State) (w : Word) :
    i.storeAddress (s.executing w) = i.storeAddress s ∧ i.loadAddress (s.executing w) = i.loadAddress s := by
  cases i <;> exact ⟨rfl, rfl⟩

/-- What a step does to memory and the devices after the arrivals: the entry's push or the instruction's access. -/
theorem step_access {s t : State} (h : step s = .next t) :
    (s.Enters ∧ Access none (some (s.reg .r7 - 1#16)) s.tick t) ∨
      ∃ i, s.Executes i ∧ Access (i.loadAddress s) (i.storeAddress s) s.tick t := by
  obtain ⟨henters, henter⟩ | ⟨w, i, hexecutes, hexec⟩ := step_enters_or_executes h
  · exact .inl ⟨henters, (enterInterrupt_inv henter).1⟩
  · obtain ⟨-, haccess⟩ := exec_effect hexec
    obtain ⟨hstore, hload⟩ := addresses_executing i s w
    rw [hstore, hload] at haccess
    exact .inr ⟨i, hexecutes, haccess.congr rfl rfl rfl rfl⟩

/-- What no step writes, and the boundary, which every step counts. -/
theorem step_constants {s t : State} (h : step s = .next t) :
    t.boundary = s.boundary + 1 ∧ t.isrVector = s.isrVector ∧ t.subCarry = s.subCarry := by
  obtain ⟨-, henter⟩ | ⟨w, i, -, hexec⟩ := step_enters_or_executes h
  · obtain ⟨-, m, d, rfl⟩ := enterInterrupt_inv henter
    exact ⟨rfl, rfl, rfl⟩
  · obtain ⟨⟨-, -, -, -, -, hboundary, hvector, hcarry⟩, -⟩ := exec_effect hexec
    exact ⟨hboundary, hvector, hcarry⟩

theorem step_devices {s t : State} (h : step s = .next t) :
    t.dev.switches = s.dev.switches ∧ t.dev.arrivals = (s.dev.tick s.boundary).arrivals := by
  obtain ⟨-, haccess⟩ | ⟨i, -, haccess⟩ := step_access h
  all_goals
    obtain ⟨hswitches, -, harrivals⟩ := haccess.constants
    exact ⟨hswitches.trans (Device.tick_switches _ _), harrivals⟩

/-- Settles O53. -/
theorem runParametersAreConstant : Obligations.RunParametersAreConstant := by
  intro s t h
  obtain ⟨-, hvector, hcarry⟩ := step_constants h
  obtain ⟨hswitches, -⟩ := step_devices h
  exact ⟨hvector, hcarry, hswitches⟩

theorem writesLr_cases {i : Instr} (h : i.writesLr = true) : (∃ imm, i = .bwl imm) ∨ i = .pop .lr := by
  cases i with
  | bwl imm => exact .inl ⟨imm, rfl⟩
  | pop dst => cases dst with
    | gpr r => cases h
    | lr => exact .inr rfl
  | _ => cases h

/-- Settles O49. -/
theorem onlyBwlAndPopWriteLr : Obligations.OnlyBwlAndPopWriteLr := by
  intro s t h hchange
  obtain ⟨-, henter⟩ | ⟨w, i, hexecutes, hexec⟩ := step_enters_or_executes h
  · obtain ⟨-, m, d, rfl⟩ := enterInterrupt_inv henter
    exact absurd rfl hchange
  · obtain ⟨⟨-, -, hlr, -⟩, -⟩ := exec_effect hexec
    have hwrites : i.writesLr = true := by
      by_contra hnot
      exact hchange (hlr (Bool.eq_false_iff.mpr hnot))
    obtain ⟨imm, rfl⟩ | rfl := writesLr_cases hwrites
    · exact .inl ⟨imm, hexecutes⟩
    · exact .inr hexecutes

theorem storeAddress_cases {i : Instr} {s : State} {a : Word} (h : i.storeAddress s = some a) :
    (∃ rd ra imm, i = .stw rd ra imm ∧ a = effectiveAddress (s.reg ra) imm) ∨
      ((i = .stf ∨ ∃ src, i = .push src) ∧ a = s.reg .r7 - 1#16) := by
  cases i with
  | stw rd ra imm => exact .inl ⟨rd, ra, imm, rfl, (Option.some.inj h).symm⟩
  | push src => exact .inr ⟨.inr ⟨src, rfl⟩, (Option.some.inj h).symm.trans (previousAddress_eq _)⟩
  | stf => exact .inr ⟨.inl rfl, (Option.some.inj h).symm.trans (previousAddress_eq _)⟩
  | _ => cases h

/-- Settles O50. -/
theorem onlyListedStoresWriteMemory : Obligations.OnlyListedStoresWriteMemory := by
  intro s t a h hchange
  obtain ⟨henters, haccess⟩ | ⟨i, hexecutes, haccess⟩ := step_access h
  · have hstore : some (s.reg .r7 - 1#16) = some a := by
      by_contra hne
      exact hchange (haccess.word hne)
    exact .inr ⟨.inl henters, (Option.some.inj hstore).symm⟩
  · have hstore : i.storeAddress s = some a := by
      by_contra hne
      exact hchange (haccess.word hne)
    obtain ⟨rd, ra, imm, rfl, ha⟩ | ⟨rfl | ⟨src, rfl⟩, ha⟩ := storeAddress_cases hstore
    · exact .inl ⟨rd, ra, imm, hexecutes, ha⟩
    · exact .inr ⟨.inr (.inl hexecutes), ha⟩
    · exact .inr ⟨.inr (.inr ⟨src, hexecutes⟩), ha⟩

/-- A step that takes the unread mark away executes a load from the data register. -/
theorem step_serialUnread {s t : State} (h : step s = .next t) (hunread : s.dev.serialUnread = true)
    (hread : t.dev.serialUnread = false) : ∃ i, s.Executes i ∧ i.loadAddress s = some 0xA000#16 := by
  have htick : s.tick.dev.serialUnread = true := tick_serialUnread hunread s.boundary
  obtain ⟨-, haccess⟩ | ⟨i, hexecutes, haccess⟩ := step_access h
  · rw [haccess.sameUnread nofun, htick] at hread
    cases hread
  · refine ⟨i, hexecutes, ?_⟩
    by_contra hne
    rw [haccess.sameUnread hne, htick] at hread
    cases hread

theorem step_enable_stays {s t : State} (h : step s = .next t) (henable : s.dev.serialIntEnable = true) :
    t.dev.serialIntEnable = true := by
  have htick : s.tick.dev.serialIntEnable = true := (Device.tick_serialIntEnable _ _).trans henable
  obtain ⟨-, haccess⟩ | ⟨i, -, haccess⟩ := step_access h
  all_goals exact haccess.enable_stays htick

/-- Settles O51: the request is the enable, which stays, and the unread mark. -/
theorem requestIsHeldUntilRead : Obligations.RequestIsHeldUntilRead := by
  intro s t h
  refine ⟨fun hrequest hreleased => ?request, step_serialUnread h, step_enable_stays h⟩
  obtain ⟨henable, hunread⟩ := Bool.and_eq_true_iff.mp hrequest
  refine step_serialUnread h hunread ?_
  rwa [Device.irqPending, step_enable_stays h henable, Bool.true_and] at hreleased

/-- Settles O52. -/
theorem ledsChangeOnlyByStores : Obligations.LedsChangeOnlyByStores := by
  intro s t h hchange
  have htick : s.tick.dev.leds = s.dev.leds := Device.tick_leds _ _
  rw [← htick] at hchange
  obtain ⟨henters, haccess⟩ | ⟨i, hexecutes, haccess⟩ := step_access h
  · have hstore : some (s.reg .r7 - 1#16) = some 0x0801#16 := by
      by_contra hne
      exact hchange (haccess.sameLeds hne)
    have hslot := Option.some.inj hstore
    exact .inr ⟨henters, by bv_omega⟩
  · refine .inl ⟨i, hexecutes, ?_⟩
    by_contra hne
    exact hchange (haccess.sameLeds hne)

/-! ### The invariant -/

/-- Settles O55: the store of a step goes to main memory, and what is still to come is later than the boundary. -/
theorem stepKeepsTheInvariant : Obligations.StepKeepsTheInvariant := by
  rintro s t ⟨hwf, -⟩ h
  constructor
  · obtain ⟨-, haccess⟩ | ⟨i, -, haccess⟩ := step_access h
    all_goals exact haccess.keeps_wf hwf
  · intro x hx
    obtain ⟨hboundary, -⟩ := step_constants h
    obtain ⟨-, harrivals⟩ := step_devices h
    rw [harrivals, tick_arrivals, List.mem_filter, decide_eq_true_iff] at hx
    rw [hboundary]
    exact hx.2

end Sys2Proof.Machine
end

section
/-! Reset and the load of a program, the end of a run (70_reset_and_hazards.md R280, R285, R290), and the masked request
(60_exceptions.md R244). -/

namespace Sys2Proof.Machine

open Sys2Proof

/-! ### Reset and load -/

/-- Loading an image upward leaves what is listed below it. -/
theorem Memory.lookup_load_below (image : List Word) (m : Memory) {a base : Nat} (h : a < base) :
    (m.load base image).lookup a = m.lookup a := by
  induction image generalizing m base with
  | nil => rfl
  | cons w ws ih =>
    rw [Memory.load, ih _ (Nat.lt_succ_of_lt h), Memory.lookup_insert_ne _ _ _ _ (Nat.ne_of_lt h)]

theorem Memory.lookup_load (image : List Word) (m : Memory) (base k : Nat) (h : k < image.length) :
    (m.load base image).lookup (base + k) = some image[k] := by
  induction image generalizing m base k with
  | nil => cases h
  | cons w ws ih =>
    cases k with
    | zero => exact (Memory.lookup_load_below _ _ (Nat.lt_succ_self base)).trans (Memory.lookup_insert_same _ _ _)
    | succ k =>
      have hrest := ih (m.insert base w) (base + 1) k (Nat.lt_of_succ_lt_succ h)
      rwa [Nat.add_assoc, Nat.add_comm 1 k] at hrest

/-- Settles O56. -/
theorem resetAndLoadMeetTheInvariant : Obligations.ResetAndLoadMeetTheInvariant := by
  refine ⟨⟨reset_mem_wf, nofun⟩, fun image hlength => ⟨⟨?wf, nofun⟩, fun k hk => ?word⟩⟩
  case wf =>
    exact Memory.wf_load _ _ image reset_mem_wf (Nat.le_trans (Nat.le_of_eq (Nat.zero_add _)) hlength)
  case word =>
    have hlisted := Memory.lookup_load image State.reset.mem Config.resetPc.toNat k hk
    have haddress : (BitVec.ofNat 16 k).toNat = Config.resetPc.toNat + k := by
      rw [BitVec.toNat_ofNat, Nat.mod_eq_of_lt (by omega)]
      exact (Nat.zero_add k).symm
    rwa [← haddress] at hlisted

theorem not_enters_of_ie {s : State} (h : s.ie = false) : s.tick.takesInterrupt = false := by
  rw [State.takesInterrupt, State.tick_ie, h, Bool.false_and]

/-- Settles O57: the load and the devices leave IE at 0. -/
theorem resetDisablesInterrupts : Obligations.ResetDisablesInterrupts := by
  refine ⟨rfl, fun image d henters => ?_⟩
  exact Bool.false_ne_true ((not_enters_of_ie rfl).symm.trans henters)

/-! ### The end of a run -/

/-- Without arrivals a boundary changes no device. -/
theorem Device.tick_of_no_arrivals {d : Device} (h : d.arrivals = []) (b : Nat) : d.tick b = d := by
  cases d
  cases h
  rfl

/-- With no interrupt ahead none is taken, and none is ahead at the next boundary. -/
theorem noInterruptAhead_tick {s : State} (h : s.NoInterruptAhead) :
    s.tick.takesInterrupt = false ∧ s.tick.NoInterruptAhead := by
  obtain hie | ⟨hpending, harrivals⟩ := h
  · exact ⟨not_enters_of_ie hie, .inl hie⟩
  · have hdev : s.tick.dev = s.dev := Device.tick_of_no_arrivals harrivals s.boundary
    exact ⟨by rw [State.takesInterrupt, hdev, hpending, Bool.and_false], .inr ⟨hdev ▸ hpending, hdev ▸ harrivals⟩⟩

/-- A branch to itself changes nothing but what the boundary does. -/
theorem step_of_final {s : State} (h : s.Final) (hir : s.ir = 0xF000#16) : step s = .next s.tick := by
  obtain ⟨⟨hregion, hword⟩, hahead⟩ := h
  have hstep := step_of_word (noInterruptAhead_tick hahead).1 (region_mainMemory.mp hregion) hword
    (decode_of_inRow (i := .br 0#8) ⟨rfl, rfl, rfl⟩)
  have hsame : s.executing 0xF000#16 = s.tick := by rw [← hir]; rfl
  rw [hstep, hsame]
  refine (branchIf_eq true 0#8 s.tick).trans ?_
  rw [if_pos rfl, show (0#8).signExtend 16 = 0#16 by decide, BitVec.add_zero]

theorem run_succ_of_next {M : Host.Core} {s s' : M.State} (h : M.step s = .next s') (k : Nat) :
    M.run (k + 1) s = M.run k s' := by
  rw [Host.Core.run, h]

/-- Settles O58: the state of the processor is the old one after every number of boundaries. -/
theorem finalStatesStayFinal : Obligations.FinalStatesStayFinal := by
  intro s k hfinal hir
  induction k generalizing s with
  | zero => exact ⟨s, rfl, hfinal, ⟨fun _ => rfl, rfl, rfl, rfl, rfl, rfl, rfl, fun _ => rfl, rfl, rfl, rfl⟩, rfl⟩
  | succ k ih =>
    have hfinal' : s.tick.Final := ⟨hfinal.1, (noInterruptAhead_tick hfinal.2).2⟩
    obtain ⟨t, hrun, hend, hsame, hleds⟩ := ih s.tick hfinal' hir
    have hfirst : core.step s = .next s.tick := step_of_final hfinal hir
    exact ⟨t, (run_succ_of_next hfirst k).trans hrun, hend, hsame, hleds.trans (Device.tick_leds _ _)⟩

/-! ### The masked request -/

/-- The state with other unread and enable bits of the serial device. -/
def State.withSerialBits (s : State) (unread enable : Bool) : State :=
  { s with dev := { s.dev with serialUnread := unread, serialIntEnable := enable } }

/-- The outcome is the other one but for the serial bits, if that is a next state. -/
def SameButSerialBits (o o' : Host.Outcome State Fault Refusal) : Prop :=
  ∀ t, o = .next t → ∃ unread enable, o' = .next (t.withSerialBits unread enable)

theorem memRead_withSerialBits {a v : Word} {s t : State} (h : memRead a s = .ok (v, t)) (unread enable : Bool) :
    ∃ unread' enable', memRead a (s.withSerialBits unread enable) = .ok (v, t.withSerialBits unread' enable') := by
  obtain ⟨hregion, rfl, rfl⟩ | ⟨hregion, rfl, rfl⟩ | ⟨hregion, rfl, rfl⟩ := memRead_cases h
  · exact ⟨unread, enable, by rw [memRead, hregion]; rfl⟩
  · exact ⟨unread, enable, by rw [memRead, hregion]; rfl⟩
  · exact ⟨false, enable, by rw [memRead, hregion]; rfl⟩

theorem memWrite_withSerialBits {a v : Word} {s t : State} (h : memWrite a v s = .ok t) (unread enable : Bool) :
    ∃ unread' enable', memWrite a v (s.withSerialBits unread enable) = .ok (t.withSerialBits unread' enable') := by
  obtain ⟨hregion, rfl⟩ | ⟨hregion, rfl⟩ | ⟨hregion, rfl, rfl⟩ := memWrite_cases h
  · exact ⟨unread, enable, by rw [memWrite, hregion]; rfl⟩
  · exact ⟨unread, enable, by rw [memWrite, hregion]; rfl⟩
  · exact ⟨unread, true, by rw [memWrite, hregion]; rfl⟩

theorem pushWord_withSerialBits {v : Word} {s t : State} (h : pushWord v s = .ok t) (unread enable : Bool) :
    ∃ unread' enable', pushWord v (s.withSerialBits unread enable) = .ok (t.withSerialBits unread' enable') :=
  memWrite_withSerialBits h unread enable

theorem popWord_withSerialBits {v : Word} {s t : State} (h : popWord s = .ok (v, t)) (unread enable : Bool) :
    ∃ unread' enable', popWord (s.withSerialBits unread enable) = .ok (v, t.withSerialBits unread' enable') := by
  obtain ⟨t₀, hread, rfl⟩ := popWord_cases h
  obtain ⟨unread', enable', hread'⟩ := memRead_withSerialBits hread unread enable
  exact ⟨unread', enable', popWord_ok (s := s.withSerialBits unread enable) hread'⟩

theorem afterLoad_withSerialBits {a : Word} {r r' : Except Refusal (Word × State)} (use : Word → State → State)
    (huse : ∀ v t unread enable, use v (State.withSerialBits t unread enable) = (use v t).withSerialBits unread enable)
    (h : ∀ v t, r = .ok (v, t) → ∃ unread enable, r' = .ok (v, t.withSerialBits unread enable)) :
    SameButSerialBits (afterLoad a r use) (afterLoad a r' use) := by
  intro t ht
  obtain ⟨v, t₀, hr, rfl⟩ := afterLoad_next ht
  obtain ⟨unread, enable, hr'⟩ := h v t₀ hr
  exact ⟨unread, enable, (afterLoad_ok hr' use).trans (congrArg Host.Outcome.next (huse v (t₀.setAluOut a) _ _))⟩

theorem afterStore_withSerialBits {a : Word} {r r' : Except Refusal State}
    (h : ∀ t, r = .ok t → ∃ unread enable, r' = .ok (State.withSerialBits t unread enable)) :
    SameButSerialBits (afterStore a r) (afterStore a r') := by
  intro t ht
  obtain ⟨t₀, hr, rfl⟩ := afterStore_next ht
  obtain ⟨unread, enable, hr'⟩ := h t₀ hr
  exact ⟨unread, enable, by rw [hr']; rfl⟩

/-- No instruction makes anything of the serial bits but serial bits. -/
theorem exec_withSerialBits (i : Instr) (s : State) (unread enable : Bool) :
    SameButSerialBits (exec i s) (exec i (s.withSerialBits unread enable)) := by
  cases i with
  | ldw rd ra imm =>
    exact afterLoad_withSerialBits (fun v t => (t.setReg rd v).advance) (fun _ _ _ _ => rfl)
      fun v t h => memRead_withSerialBits h unread enable
  | stw rd ra imm => exact afterStore_withSerialBits fun t h => memWrite_withSerialBits h unread enable
  | push src =>
    intro t ht
    have hsrc : src ≠ .gpr .r7 := by rintro rfl; cases ht
    have hvalue : (s.withSerialBits unread enable).stackReg src = s.stackReg src := by cases src <;> rfl
    obtain ⟨unread', enable', hpush⟩ :=
      afterStore_withSerialBits (fun t h => pushWord_withSerialBits h unread enable) t ((if_neg hsrc).symm.trans ht)
    exact ⟨unread', enable', (if_neg hsrc).trans (hvalue.symm ▸ hpush)⟩
  | pop dst =>
    intro t ht
    have hdst : dst ≠ .gpr .r7 := by rintro rfl; cases ht
    obtain ⟨unread', enable', hpop⟩ :=
      afterLoad_withSerialBits (fun v t => (t.setStackReg dst v).advance) (fun _ _ _ _ => by cases dst <;> rfl)
        (fun v t h => popWord_withSerialBits h unread enable) t ((if_neg hdst).symm.trans ht)
    exact ⟨unread', enable', (if_neg hdst).trans hpop⟩
  | reti =>
    exact afterLoad_withSerialBits (fun v t => t.setPc v) (fun _ _ _ _ => rfl)
      fun v t h => popWord_withSerialBits h unread enable
  | stf => exact afterStore_withSerialBits fun t h => pushWord_withSerialBits h unread enable
  | ldf =>
    exact afterLoad_withSerialBits (fun v t => (t.setFlags (flagsOfWord v)).advance) (fun _ _ _ _ => rfl)
      fun v t h => popWord_withSerialBits h unread enable
  | br imm | bne imm | be imm | blt imm | bge imm =>
    intro t ht
    cases (branchIf_eq _ imm s).symm.trans ht
    exact ⟨unread, enable, branchIf_eq _ imm _⟩
  | add | addi | addib | adc | adci | neg | sub | subi | subib | suc | suci | cmp | cmpi =>
    intro t ht
    cases ht
    exact ⟨unread, enable, rfl⟩
  | and | or | xor | not | nand | nor | lsl | lsr | asr | lui | lli | bwl | ret | jmp | enai | disi =>
    intro t ht
    cases ht
    exact ⟨unread, enable, rfl⟩

/-- A received value is unread whatever was before it, so a boundary keeps two states apart by serial bits at most. -/
theorem tick_withSerialBits (s : State) (unread enable : Bool) :
    ∃ unread', (s.withSerialBits unread enable).tick = s.tick.withSerialBits unread' enable := by
  have hfold (l : List Arrival) : ∀ (d : Device) (unread : Bool), ∃ unread',
      l.foldl (fun e x => e.receive x.datum) { d with serialUnread := unread, serialIntEnable := enable } =
        { l.foldl (fun e x => e.receive x.datum) d with serialUnread := unread', serialIntEnable := enable } := by
    induction l with
    | nil => exact fun d unread => ⟨unread, rfl⟩
    | cons x l ih => exact fun d _ => ih (d.receive x.datum) true
  obtain ⟨unread', h⟩ := hfold (s.dev.arrivals.filter (Arrival.due s.boundary)) s.dev unread
  refine ⟨unread', ?_⟩
  simp only [State.withSerialBits, State.tick, Device.tick]
  rw [h]

/-- Settles O54: neither step takes the interrupt, and the instruction is the same. -/
theorem maskedRequestHasNoEffect : Obligations.MaskedRequestHasNoEffect := by
  intro s t unread enable hie h
  rw [step_of_not_taken (not_enters_of_ie hie)] at h
  obtain ⟨w, i, hregion, hword, hdecode, hexec⟩ := runInstruction_next h
  obtain ⟨unread', htick⟩ := tick_withSerialBits s unread enable
  have hstep : step (s.withSerialBits unread enable) = exec i ((s.executing w).withSerialBits unread' enable) := by
    rw [step_of_word (s := s.withSerialBits unread enable) (not_enters_of_ie hie) (region_mainMemory.mp hregion)
      hword hdecode, State.executing, htick]
    rfl
  obtain ⟨unread'', enable'', hexec'⟩ := exec_withSerialBits i (s.executing w) unread' enable t hexec
  exact ⟨_, hstep.trans hexec', ⟨fun _ => rfl, rfl, rfl, rfl, rfl, rfl, rfl, fun _ => rfl, rfl, rfl, rfl⟩, rfl⟩

end Sys2Proof.Machine
end

section
/-! Hand assembly: the lines of a source text, the addresses of its labels, and what a line that assembles denotes
(30_encoding.md R112 to R114, R119). -/

namespace Sys2Proof.Machine

open Sys2Proof

/-! ### Lines, addresses and labels -/

/-- What a line denotes an instruction by is the code of its tokens. -/
theorem instructionTokens_eq (line : String) :
    instructionTokens line = if codeOf (lineTokens line) = [] then none else some (codeOf (lineTokens line)) := by
  unfold instructionTokens codeOf
  cases lineTokens line with
  | nil => rfl
  | cons t rest =>
    dsimp only
    split_ifs <;> simp_all

/-- A line produces as many words as it holds instructions. -/
theorem lineWords_eq (line : String) : lineWords (lineTokens line) = ([line].filterMap instructionTokens).length := by
  rw [lineWords, List.filterMap_cons, instructionTokens_eq]
  split_ifs <;> rfl

theorem labelOf_eq_some {label : Token} {line : String} :
    labelOf (lineTokens line) = some label ↔ beginsWithLabel label line = true := by
  unfold labelOf beginsWithLabel
  cases lineTokens line with
  | nil => simp
  | cons t rest =>
    by_cases hdefine : t = defineDirective
    · simp only [hdefine]
      grind
    · grind

/-- The instruction lines carry the tokens of the lines that hold an instruction, in source order. -/
theorem map_tokens_codeLines (source : List String) (n address : Nat) (defines : List (Token × Reg)) :
    (codeLines (numberLines source n) address defines).map (fun l => l.mnemonic :: l.operands) =
      source.filterMap instructionTokens := by
  induction source generalizing n address defines with
  | nil => rfl
  | cons line source ih =>
    rw [numberLines, codeLines, List.filterMap_cons, instructionTokens_eq]
    cases hcode : codeOf (lineTokens line) with
    | nil => exact ih ..
    | cons m ops => exact congrArg ((m :: ops) :: ·) (ih ..)

/-- The instruction lines have the addresses from the first one upward. -/
theorem address_codeLines (lines : List SourceLine) (address : Nat) (defines : List (Token × Reg)) {k : Nat} {l : AsmLine}
    (h : (codeLines lines address defines)[k]? = some l) : l.address = address + k := by
  induction lines generalizing address defines k with
  | nil => cases h
  | cons line lines ih =>
    rw [codeLines] at h
    cases hcode : codeOf line.tokens with
    | nil =>
      rw [hcode] at h
      exact ih _ _ h
    | cons m ops =>
      rw [hcode] at h
      cases k with
      | zero =>
        cases h
        rfl
      | succ k => exact (ih _ _ h).trans (by omega)

/-- The table holds a label with the number of words above the first line that begins with it. -/
theorem findNamed_labelTable (label : Token) (source : List String) (n address : Nat) :
    findNamed label (labelTable (numberLines source n) address) =
      (source.findIdx? (beginsWithLabel label)).map
        fun j => address + ((source.take j).filterMap instructionTokens).length := by
  induction source generalizing n address with
  | nil => rfl
  | cons line source ih =>
    have hrest : findNamed label (labelTable (numberLines source (n + 1)) (address + lineWords (lineTokens line))) =
        ((source.findIdx? (beginsWithLabel label)).map (· + 1)).map
          fun j => address + (((line :: source).take j).filterMap instructionTokens).length := by
      have hwords (j : Nat) : (((line :: source).take (j + 1)).filterMap instructionTokens).length =
          lineWords (lineTokens line) + ((source.take j).filterMap instructionTokens).length := by
        rw [lineWords_eq, ← List.length_append, ← List.filterMap_append]
        rfl
      simp only [ih, Option.map_map, Function.comp_def, hwords, Nat.add_assoc]
    rw [numberLines, labelTable, List.findIdx?_cons]
    cases hlabel : labelOf (lineTokens line) with
    | none =>
      have hother : ¬ beginsWithLabel label line = true := fun hb => nomatch hlabel.symm.trans (labelOf_eq_some.mpr hb)
      rw [if_neg hother]
      exact hrest
    | some t =>
      dsimp only [findNamed]
      by_cases ht : t = label
      · rw [if_pos ht, if_pos (labelOf_eq_some.mp (hlabel.trans (congrArg some ht)))]
        rfl
      · have hother : ¬ beginsWithLabel label line = true :=
          fun hb => ht (Option.some.inj (hlabel.symm.trans (labelOf_eq_some.mpr hb)))
        rw [if_neg ht, if_neg hother]
        exact hrest

theorem findNamed_labels (source : List String) (label : Token) :
    findNamed label (labelTable (sourceLines source) 0) = labelAddress source label := by
  rw [sourceLines, findNamed_labelTable, labelAddress]
  cases source.findIdx? (beginsWithLabel label) with
  | none => rfl
  | some j => exact congrArg some (Nat.zero_add _)

/-! ### The instruction of a line -/

/-- The instructions of this form of assembly line, and their operands (30_encoding.md R112). -/
inductive SyntaxForm.Makes : SyntaxForm → Instr → List AsmOperand → Prop
  | threeRegs (make) (d a b) : Makes (.threeRegs make) (make d a b) [.reg d, .reg a, .reg b]
  | twoRegsImm (make) (d a imm) : Makes (.twoRegsImm make) (make d a imm) [.reg d, .reg a, .short imm]
  | twoRegsCount (make) (d a n) : Makes (.twoRegsCount make) (make d a n) [.reg d, .reg a, .count n]
  | regByte (make) (d imm) : Makes (.regByte make) (make d imm) [.reg d, .byte imm]
  | twoRegs (make) (a b) : Makes (.twoRegs make) (make a b) [.reg a, .reg b]
  | regImm (make) (a imm) : Makes (.regImm make) (make a imm) [.reg a, .short imm]
  | label (make) (imm) : Makes (.label make) (make imm) [.offset imm]
  | stack (make) (r) : Makes (.stack make) (make r) [.stack r]
  | bare (i) : Makes (.bare i) i []

/-- The assembly lines of the form's instructions have this mnemonic and the form's operands. -/
def SyntaxForm.HasMnemonic (name : String) : SyntaxForm → Prop
  | .threeRegs make => ∀ d a b, syntaxLine (make d a b) = (name, [.reg d, .reg a, .reg b])
  | .twoRegsImm make => ∀ d a imm, syntaxLine (make d a imm) = (name, [.reg d, .reg a, .short imm])
  | .twoRegsCount make => ∀ d a n, syntaxLine (make d a n) = (name, [.reg d, .reg a, .count n])
  | .regByte make => ∀ d imm, syntaxLine (make d imm) = (name, [.reg d, .byte imm])
  | .twoRegs make => ∀ a b, syntaxLine (make a b) = (name, [.reg a, .reg b])
  | .regImm make => ∀ a imm, syntaxLine (make a imm) = (name, [.reg a, .short imm])
  | .label make => ∀ imm, syntaxLine (make imm) = (name, [.offset imm])
  | .stack make => ∀ r, syntaxLine (make r) = (name, [.stack r])
  | .bare i => syntaxLine i = (name, [])

theorem hasMnemonic_of_mem : ∀ p ∈ syntaxTable, p.2.HasMnemonic p.1 := by
  simp only [syntaxTable, arithmeticSyntax, logicSyntax, transferSyntax, stackSyntax, List.append_eq,
    List.forall_mem_append, List.forall_mem_cons, List.not_mem_nil, false_implies, implies_true, and_true]
  simp only [SyntaxForm.HasMnemonic, syntaxLine, implies_true, and_true]

/-- The forms of the table are those of the assembly lines. -/
theorem syntaxLine_of_makes {form : SyntaxForm} {name : String} {i : Instr} {ops : List AsmOperand}
    (hname : form.HasMnemonic name) (h : form.Makes i ops) : syntaxLine i = (name, ops) := by
  cases h <;> exact hname ..

/-- The table holds every instruction's mnemonic with the form of its assembly line. -/
theorem mem_syntaxTable (i : Instr) :
    ∃ form, ((syntaxLine i).1, form) ∈ syntaxTable ∧ form.Makes i (syntaxLine i).2 := by
  simp only [syntaxTable, arithmeticSyntax, logicSyntax, transferSyntax, stackSyntax, List.append_eq, List.mem_append,
    List.mem_cons]
  cases i with
  | add | adc | sub | suc | and | or | xor | nand | nor =>
    exact ⟨_, by simp only [syntaxLine, true_or, or_true], .threeRegs _ _ _ _⟩
  | addi | adci | subi | suci | ldw | stw =>
    exact ⟨_, by simp only [syntaxLine, true_or, or_true], .twoRegsImm _ _ _ _⟩
  | lsl | lsr | asr => exact ⟨_, by simp only [syntaxLine, true_or, or_true], .twoRegsCount _ _ _ _⟩
  | addib | subib | lui | lli => exact ⟨_, by simp only [syntaxLine, true_or, or_true], .regByte _ _ _⟩
  | neg | cmp | not => exact ⟨_, by simp only [syntaxLine, true_or, or_true], .twoRegs _ _ _⟩
  | cmpi | jmp => exact ⟨_, by simp only [syntaxLine, true_or, or_true], .regImm _ _ _⟩
  | br | bne | be | blt | bge | bwl => exact ⟨_, by simp only [syntaxLine, true_or, or_true], .label _ _⟩
  | push | pop => exact ⟨_, by simp only [syntaxLine, true_or, or_true], .stack _ _⟩
  | ret | reti | enai | disi | stf | ldf => exact ⟨_, by simp only [syntaxLine, true_or, or_true], .bare _⟩

/-- The table lists a mnemonic once. -/
theorem syntaxTable_nodup : (syntaxTable.map Prod.fst).Nodup := by decide

/-- NOP, whose word is not shown, is not in the table. -/
theorem ne_nop_of_mem {p : String × SyntaxForm} (h : p ∈ syntaxTable) : p.1 ≠ "NOP" := by
  have hall : ∀ n ∈ syntaxTable.map Prod.fst, n ≠ "NOP" := by decide
  exact hall _ (List.mem_map_of_mem h)

/-- In a list without a repeated name, a name stands for what it is listed with. -/
theorem findNamed_eq_some_iff {α : Type} {table : List (String × α)} (h : (table.map Prod.fst).Nodup) {name : Token} {x : α} :
    findNamed name (table.map fun p => (p.1.toList, p.2)) = some x ↔ ∃ n, (n, x) ∈ table ∧ n.toList = name := by
  constructor
  · intro hfound
    obtain ⟨p, hp, heq⟩ := List.mem_map.mp (findNamed_mem hfound)
    obtain ⟨hname, rfl⟩ := Prod.mk.inj heq
    exact ⟨p.1, hp, hname⟩
  · rintro ⟨n, hmem, rfl⟩
    induction table with
    | nil => cases hmem
    | cons p table ih =>
      obtain ⟨hnew, hnodup⟩ := List.nodup_cons.mp h
      rw [List.map_cons, findNamed]
      obtain rfl | hmem := List.mem_cons.mp hmem
      · exact if_pos rfl
      · have hne : p.1.toList ≠ n.toList := fun heq =>
          hnew (String.toList_inj.mp heq ▸ List.mem_map_of_mem (f := Prod.fst) hmem)
        rw [if_neg hne]
        exact ih hnodup hmem

theorem except_bind_eq_ok {ε α β : Type} {e : Except ε α} {f : α → Except ε β} {x : β} :
    (e >>= f) = .ok x ↔ ∃ a, e = .ok a ∧ f a = .ok x := by
  cases e with
  | error e => exact ⟨nofun, nofun⟩
  | ok a => exact ⟨fun h => ⟨a, rfl, h⟩, fun ⟨_, ha, h⟩ => by cases ha; exact h⟩

section Operands

variable {source : List String} {isr : Option IsrRange} {l : AsmLine} {t : Token}

theorem denotedBy_short {imm : BitVec 5} {tooLarge : Token → AsmError} :
    AsmOperand.DenotedBy source isr l t (.short imm) ↔ parseField 5 tooLarge t = .ok imm := by
  rw [parseField_ok, AsmOperand.DenotedBy]
  norm_num

theorem denotedBy_byte {imm : BitVec 8} {tooLarge : Token → AsmError} :
    AsmOperand.DenotedBy source isr l t (.byte imm) ↔ parseField 8 tooLarge t = .ok imm := by
  rw [parseField_ok, AsmOperand.DenotedBy]
  norm_num

theorem denotedBy_count {n : Nat} : AsmOperand.DenotedBy source isr l t (.count n) ↔ parseCount t = .ok n :=
  parseCount_ok.symm

theorem denotedBy_offset {imm : BitVec 8} : AsmOperand.DenotedBy source isr l t (.offset imm) ↔
    parseLabel (labelTable (sourceLines source) 0) isr l.address t = .ok imm := by
  rw [parseLabel_ok, AsmOperand.DenotedBy]
  simp only [findNamed_labels]
  exact exists_congr fun target => by tauto

end Operands

section Build

variable {source : List String} {isr : Option IsrRange} {form : SyntaxForm} {l : AsmLine} {i : Instr}

/-- A line that builds an instruction of the form has the operands of that instruction. -/
theorem makes_of_buildInstr (h : buildInstr (labelTable (sourceLines source) 0) isr form l = .ok i) :
    ∃ ops, form.Makes i ops ∧ List.Forall₂ (fun t o => AsmOperand.DenotedBy source isr l t o) l.operands ops := by
  have hlength := buildInstr_operands h
  unfold buildInstr at h
  rw [if_neg (by omega), if_neg (by omega)] at h
  cases form with
  | threeRegs make =>
    obtain ⟨x, y, z, hops⟩ := List.length_eq_three.mp hlength
    simp only [except_bind_eq_ok, operandAt, hops] at h
    obtain ⟨d, hd, a, ha, b, hb, ⟨⟩⟩ := h
    exact ⟨_, .threeRegs make d a b, hops ▸ .cons hd (.cons ha (.cons hb .nil))⟩
  | twoRegsImm make =>
    obtain ⟨x, y, z, hops⟩ := List.length_eq_three.mp hlength
    simp only [except_bind_eq_ok, operandAt, hops] at h
    obtain ⟨d, hd, a, ha, imm, himm, ⟨⟩⟩ := h
    exact ⟨_, .twoRegsImm make d a imm, hops ▸ .cons hd (.cons ha (.cons (denotedBy_short.mpr himm) .nil))⟩
  | twoRegsCount make =>
    obtain ⟨x, y, z, hops⟩ := List.length_eq_three.mp hlength
    simp only [except_bind_eq_ok, operandAt, hops] at h
    obtain ⟨d, hd, a, ha, n, hn, ⟨⟩⟩ := h
    exact ⟨_, .twoRegsCount make d a n, hops ▸ .cons hd (.cons ha (.cons (denotedBy_count.mpr hn) .nil))⟩
  | regByte make =>
    obtain ⟨x, y, hops⟩ := List.length_eq_two.mp hlength
    simp only [except_bind_eq_ok, operandAt, hops] at h
    obtain ⟨d, hd, imm, himm, ⟨⟩⟩ := h
    exact ⟨_, .regByte make d imm, hops ▸ .cons hd (.cons (denotedBy_byte.mpr himm) .nil)⟩
  | twoRegs make =>
    obtain ⟨x, y, hops⟩ := List.length_eq_two.mp hlength
    simp only [except_bind_eq_ok, operandAt, hops] at h
    obtain ⟨a, ha, b, hb, ⟨⟩⟩ := h
    exact ⟨_, .twoRegs make a b, hops ▸ .cons ha (.cons hb .nil)⟩
  | regImm make =>
    obtain ⟨x, y, hops⟩ := List.length_eq_two.mp hlength
    simp only [except_bind_eq_ok, operandAt, hops] at h
    obtain ⟨a, ha, imm, himm, ⟨⟩⟩ := h
    exact ⟨_, .regImm make a imm, hops ▸ .cons ha (.cons (denotedBy_short.mpr himm) .nil)⟩
  | label make =>
    obtain ⟨x, hops⟩ := List.length_eq_one_iff.mp hlength
    simp only [except_bind_eq_ok, operandAt, hops] at h
    obtain ⟨imm, himm, ⟨⟩⟩ := h
    exact ⟨_, .label make imm, hops ▸ .cons (denotedBy_offset.mpr himm) .nil⟩
  | stack make =>
    obtain ⟨x, hops⟩ := List.length_eq_one_iff.mp hlength
    simp only [except_bind_eq_ok, operandAt, hops] at h
    obtain ⟨r, hr, ⟨⟩⟩ := h
    exact ⟨_, .stack make r, hops ▸ .cons hr .nil⟩
  | bare i =>
    cases h
    exact ⟨[], .bare i, List.length_eq_zero_iff.mp hlength ▸ .nil⟩

/-- A form asks for as many operands as its instructions have. -/
theorem SyntaxForm.Makes.length_eq {ops : List AsmOperand} (h : form.Makes i ops) : ops.length = operandCount form := by
  cases h <;> rfl

theorem operandAt_denotes {ops : List AsmOperand}
    (h : List.Forall₂ (fun t o => AsmOperand.DenotedBy source isr l t o) l.operands ops) (n : Nat) (o : AsmOperand)
    (ho : ops[n]? = some o) : AsmOperand.DenotedBy source isr l (operandAt l n) o := by
  obtain ⟨hn, rfl⟩ := List.getElem?_eq_some_iff.mp ho
  have hn' : n < l.operands.length := h.length_eq ▸ hn
  rw [operandAt, List.getD_eq_getElem _ _ hn']
  exact h.get hn' hn

/-- The operands of an instruction of the form build it. -/
theorem buildInstr_of_makes {ops : List AsmOperand} (h : form.Makes i ops)
    (hops : List.Forall₂ (fun t o => AsmOperand.DenotedBy source isr l t o) l.operands ops) :
    buildInstr (labelTable (sourceLines source) 0) isr form l = .ok i := by
  have hlength : l.operands.length = operandCount form := hops.length_eq.trans h.length_eq
  have hat := operandAt_denotes hops
  unfold buildInstr
  rw [if_neg (by omega), if_neg (by omega)]
  cases h with
  | threeRegs make d a b =>
    exact except_bind_eq_ok.mpr ⟨d, hat 0 _ rfl, except_bind_eq_ok.mpr ⟨a, hat 1 _ rfl,
      except_bind_eq_ok.mpr ⟨b, hat 2 _ rfl, rfl⟩⟩⟩
  | twoRegsImm make d a imm =>
    exact except_bind_eq_ok.mpr ⟨d, hat 0 _ rfl, except_bind_eq_ok.mpr ⟨a, hat 1 _ rfl,
      except_bind_eq_ok.mpr ⟨imm, denotedBy_short.mp (hat 2 _ rfl), rfl⟩⟩⟩
  | twoRegsCount make d a n =>
    exact except_bind_eq_ok.mpr ⟨d, hat 0 _ rfl, except_bind_eq_ok.mpr ⟨a, hat 1 _ rfl,
      except_bind_eq_ok.mpr ⟨n, denotedBy_count.mp (hat 2 _ rfl), rfl⟩⟩⟩
  | regByte make d imm =>
    exact except_bind_eq_ok.mpr ⟨d, hat 0 _ rfl,
      except_bind_eq_ok.mpr ⟨imm, denotedBy_byte.mp (hat 1 _ rfl), rfl⟩⟩
  | twoRegs make a b =>
    exact except_bind_eq_ok.mpr ⟨a, hat 0 _ rfl, except_bind_eq_ok.mpr ⟨b, hat 1 _ rfl, rfl⟩⟩
  | regImm make a imm =>
    exact except_bind_eq_ok.mpr ⟨a, hat 0 _ rfl,
      except_bind_eq_ok.mpr ⟨imm, denotedBy_short.mp (hat 1 _ rfl), rfl⟩⟩
  | label make imm => exact except_bind_eq_ok.mpr ⟨imm, denotedBy_offset.mp (hat 0 _ rfl), rfl⟩
  | stack make r => exact except_bind_eq_ok.mpr ⟨r, hat 0 _ rfl, rfl⟩
  | bare i => rfl

/-- A line assembles to exactly the instruction it denotes. -/
theorem assembleLine_ok_iff_denotes :
    assembleLine (labelTable (sourceLines source) 0) isr l = .ok i ↔ l.Denotes source isr i := by
  rw [assembleLine_ok]
  constructor
  · rintro ⟨-, form, hform, hbuild⟩
    obtain ⟨name, hmem, hname⟩ := (findNamed_eq_some_iff syntaxTable_nodup).mp hform
    obtain ⟨ops, hmakes, hops⟩ := makes_of_buildInstr hbuild
    have hline := syntaxLine_of_makes (hasMnemonic_of_mem _ hmem) hmakes
    exact ⟨by rw [hline]; exact hname.symm, by rw [hline]; exact hops⟩
  · rintro ⟨hname, hops⟩
    obtain ⟨form, hmem, hmakes⟩ := mem_syntaxTable i
    refine ⟨?notNop, form, (findNamed_eq_some_iff syntaxTable_nodup).mpr ⟨_, hmem, hname.symm⟩,
      buildInstr_of_makes hmakes hops⟩
    case notNop => exact fun hnop => ne_nop_of_mem hmem (String.toList_inj.mp (hname.symm.trans hnop))

/-- The only operand an instruction could hold out of range, a shift count, is in range where a token denotes it. -/
theorem wellFormed_of_denotes (h : l.Denotes source isr i) : i.WellFormed = true := by
  obtain ⟨-, hops⟩ := h
  cases i with
  | lsl rd ra n | lsr rd ra n | asr rd ra n =>
    exact decide_eq_true (operandAt_denotes hops 2 _ rfl).2
  | _ => rfl

end Build

/-- Settles O59. -/
theorem assembledWordsAreTheirLinesInstructions : Obligations.AssembledWordsAreTheirLinesInstructions := by
  refine ⟨fun source image hassemble => ?image, fun source isr program hcheck hdenotes => ?program⟩
  case image =>
    obtain ⟨isr, program, hcheck, hlines, rfl⟩ := assemble_ok.mp hassemble
    have hall := assembleLines_ok.mp hlines
    have htokens := map_tokens_codeLines source 1 0 []
    refine ⟨?length, htokens, isr, hcheck, fun k hk => ?word⟩
    case length => rw [List.length_map, ← hall.length_eq, ← htokens, List.length_map]; rfl
    case word =>
      have hk' : k < program.length := List.length_map (as := program) encode ▸ hk
      have hkl : k < (programLines source).length := hall.length_eq ▸ hk'
      have hdenotes := assembleLine_ok_iff_denotes.mp (hall.get hkl hk')
      have hwf := wellFormed_of_denotes hdenotes
      have hline : (programLines source)[k]? = some (programLines source)[k] := List.getElem?_eq_getElem hkl
      refine ⟨_, program[k], hline, (address_codeLines _ _ _ hline).trans (Nat.zero_add k), hdenotes, hwf, ?_⟩
      rw [List.getElem_map]
      exact decodeOfEncodeIsIdentity _ hwf
  case program =>
    refine assemble_ok.mpr ⟨isr, program, hcheck, assembleLines_ok.mpr ?_, rfl⟩
    exact hdenotes.imp fun _ _ => assembleLine_ok_iff_denotes.mpr

end Sys2Proof.Machine
end
